-- ==== Sys2Proof/Word.lean ====
section
/-! DEFINITION. The widths and index types the manual uses: 32-bit words, 8-bit bytes, 24-bit samples, 32-bit period
numbers, 16-bit plan versions, and the bounded indexes (node ids, records, preamp inputs, order cells, preamp steps). -/

namespace Sys2Proof

/-- A 32-bit word of the memory bus, of a counter, or of a unit serial. -/
abbrev Word := BitVec 32

/-- An eight-bit character or memory byte. -/
abbrev Byte := BitVec 8

/-- A period number (R1): 32 bits, compared with half-range ordering. -/
abbrev Period := BitVec 32

/-- A signed 24-bit sample (R1); its value is `toInt`. -/
abbrev Sample := BitVec 24

/-- A plan version (R7): 16 bits, compared for equality only; 0 means no plan. -/
abbrev Version := BitVec 16

/-- A node id, 0 to 7 (R1). -/
abbrev NodeId := Fin 8

/-- A preamp input number, 0 to 63 (R157). -/
abbrev InputId := Fin 64

/-- A return record number, 0 to 127 (R123). -/
abbrev RecordId := Fin 128

/-- An order cell number, 0 to 3 (R180). -/
abbrev CellId := Fin 4

/-- A known preamp step, 0 to 60 (R1); `Option PreStep` adds UNKNOWN (or none, where a rule says none). -/
abbrev PreStep := Fin 61

/-- A word address on the host's memory bus: 22 bits (External connections). -/
abbrev WordAddr := BitVec 22

end Sys2Proof
end

