-- ==== Sys2Proof/Syntax.lean ====
section
/-! DEFINITION. The commands of the WK640: one constructor of `Instr` per row of spec/opcode_table.json, with the data they
carry (bursts, messages, plan fragments, configuration images, bus writes). -/

namespace Sys2Proof

/-- The two optical ring ports (R21). -/
inductive Port where
  | east
  | west
deriving DecidableEq, Repr

/-- A pair of like things, one per ring port. -/
structure PerPort (α : Type) where
  east : α
  west : α
deriving DecidableEq, Repr

/-- Receive states of a port (R21). -/
inductive RxState where
  | dark
  | acquire
  | up
  | quarantine
deriving DecidableEq, Repr

/-- Cadence states (R39). -/
inductive CadenceState where
  | free
  | locking
  | locked
  | holdover
  | stepPending
deriving DecidableEq, Repr

/-- Roles of the Cadence Unit (R39). -/
inductive Role where
  | timing
  | follower
deriving DecidableEq, Repr

/-- Reference sources of a timing node (R44). -/
inductive RefSource where
  | internal
  | wck
deriving DecidableEq, Repr

/-- Slot kinds (R4). -/
inductive SlotKind where
  | mic
  | mix
  | talk
  | line
deriving DecidableEq, Repr

/-- The kind field a slot may carry (R4): a preamp step (`none` is UNKNOWN) for MIC, a key for TALK, nothing else. -/
inductive KindField where
  | absent
  | step (s : Option PreStep)
  | key (down : Bool)
deriving DecidableEq, Repr

/-- One slot of a burst (R4). -/
structure Slot where
  sample   : Sample := 0
  valid    : Bool := false
  overload : Bool := false
  field    : KindField := .absent
deriving DecidableEq, Repr

/-- The cadence report of a burst (R2, R56). -/
structure CadenceReport where
  state  : CadenceState
  role   : Role
  ref    : Option NodeId
  rank   : Fin 16
  unsync : Bool
deriving DecidableEq, Repr

/-- The port report of a burst (R2): the origin's two receive states. -/
abbrev PortReport := PerPort RxState

/-- The four message kinds (R83). -/
inductive MsgKind where
  | claim
  | release
  | gain
  | drop
deriving DecidableEq, Repr

/-- A message's kind and body (R83). The step of a GAIN is carried as six bits; R159 clamps it where it is used. -/
inductive MsgBody where
  | claim (input : InputId)
  | release (input : InputId)
  | gain (input : InputId) (step : Fin 64)
  | drop (input : InputId)
deriving DecidableEq, Repr

/-- A message as the aux field carries it (R83). -/
structure Message where
  dest   : NodeId
  toggle : Bool
  body   : MsgBody
deriving DecidableEq, Repr

/-- The kind of a plan fragment; only a STAGED fragment carries an effective period (R12). -/
inductive FragKind where
  | staged (e : Period)
  | current
deriving DecidableEq, Repr

/-- A plan fragment of the beacon (R12). -/
structure Fragment where
  kind    : FragKind
  version : Version
  number  : Fin 6
  body    : Vector Byte 12
deriving DecidableEq, Repr

/-- The aux field of a burst (R2, R83): absent, a message, a plan fragment, or a content whose kind code names nothing. -/
inductive Aux where
  | absent
  | message (m : Message)
  | fragment (f : Fragment)
  | other
deriving DecidableEq, Repr

/-- The reasons of a REFUSED verdict (R84). -/
inductive RefuseReason where
  | held
  | noInput
  | notHolder
deriving DecidableEq, Repr

/-- A verdict with its reason and value (R84); BUSY carries no reason and value 0. -/
inductive Verdict where
  | taken (value : Fin 256)
  | refused (reason : RefuseReason) (value : Fin 256)
  | busy
deriving DecidableEq, Repr

/-- An answer as the answer field carries it (R84). -/
structure Answer where
  target    : NodeId
  toggle    : Bool
  echoKind  : MsgKind
  echoInput : InputId
  verdict   : Verdict
deriving DecidableEq, Repr

/-- A burst without its check word (R2). -/
structure Burst where
  origin  : NodeId
  serial  : Word
  period  : Period
  version : Version
  hop     : Fin 8
  cadence : CadenceReport
  ports   : PortReport
  aux     : Aux
  answer  : Option Answer
  slots   : List Slot
deriving DecidableEq, Repr

/-- Tap kinds (R103). -/
inductive TapKind where
  | send
  | ret
deriving DecidableEq, Repr

/-- Tap word justification (R103, R106). -/
inductive Justification where
  | left
  | right
deriving DecidableEq, Repr

/-- Loss policies (R123). -/
inductive LossPolicy where
  | fade
  | mute
  | pass
deriving DecidableEq, Repr

/-- A tap table item of the image as decoded (R103); `none` is a code that names no value. -/
structure TapItem where
  kind  : Option TapKind
  base  : Nat
  chans : Nat
  first : Nat
  just  : Option Justification
deriving DecidableEq, Repr

/-- An allotment of the image's initial plan as decoded (R5). -/
structure AllotItem where
  owner : Nat
  first : Nat
  count : Nat
  kind  : Option SlotKind
deriving DecidableEq, Repr

/-- A record setting of the image as decoded (R123). -/
structure RecordItem where
  record  : Nat
  binding : Nat
  trim    : Int
  want    : Nat
  seek    : Bool
  policy  : LossPolicy
  fadeOut : Int
  fadeIn  : Int
  mask    : BitVec 4
  level   : Int
  duck    : Int
deriving DecidableEq, Repr

/-- A talk entry of the image as decoded (R145). -/
structure TalkItem where
  entry   : Nat
  binding : Nat
deriving DecidableEq, Repr

/-- The items of a configuration image, as the data sheet's layout decodes them (R192). -/
structure Image where
  nodeId       : Nat
  serial       : Word
  rank         : Nat
  authority    : Nat
  rate         : Nat
  source       : Option RefSource
  holdover     : Nat
  delay        : Nat
  blockLen     : Nat
  blockWidth   : Nat
  taps         : List TapItem
  planVersion  : Version
  plan         : List AllotItem
  records      : List RecordItem
  talk         : List TalkItem
  talkAttack   : Option Int
  talkRelease  : Option Int
  talkHold     : Option Int
  preampCount  : Nat
  initialSteps : List (Nat × Nat)
  settle       : Nat
  attention    : Word
deriving DecidableEq, Repr

/-- What a code write of RESTART carries besides cell and tag: the bits of the code word that are not examined (R196), and the levels
of the BASE straps at that moment, which the full reset takes (R122). -/
structure RestartWrite where
  spare  : Byte
  straps : Fin 16
deriving DecidableEq, Repr

/-- A command: one constructor per row of spec/opcode_table.json. The order rows (CODE_ZERO to RESTART) are code writes to
an order cell: they carry the cell, the host tag (bits 31 to 16 of the code word) and the bits that are not examined (15 to
8); the arguments are the cell's argument copies (R180, R182, R196). RESTART carries the levels of the BASE straps at that moment
as well, since the full reset that it makes takes them (R122), as POWER_ON and RESET_PIN do. CONFIG_LOAD carries the bytes of the
SPI configuration memory from address 0 and the items that the data sheet's layout decodes from them (R191, R192). -/
inductive Instr where
  -- start-up
  | powerOn (straps : Fin 16)
  | resetPin (straps : Fin 16)
  | resetRelease
  | configLoad (bytes : List Byte) (image : Image)
  -- the tick and the steps that fall at a tick
  | tick
  | presentationDelayChange
  | blockStrobeEnd
  | joinQuietEnd
  -- the ring
  | lightArrival (port : Port)
  | lightLoss (port : Port)
  | burstArrival (port : Port) (elapsed : Nat) (burst : Burst) (check : Word)
  | wckEdge (phase : Int)
  | burstSent (port : Port)
  | acquireFailed (port : Port)
  | windowEnd (port : Port)
  | quarantineEnd (port : Port)
  | drillEnd (port : Port)
  | referenceLost
  | holdoverExpiry
  | rosterLeave (origin : NodeId)
  | pathSilenceEnd (origin : NodeId) (port : Port)
  | lapSilenceEnd (port : Port)
  | deadlineReached (entry : Fin 16)
  | backoffExpired (entry : Fin 16)
  | adoption
  | assemblyExpiry
  | holdEnd (entry : Fin 4)
  -- the preamp port
  | transactionStart
  | stepCharacterSent
  | characterReceived (data : Byte) (parity : Bool) (stop : Bool)
  | answerTimerExpiry
  | settleEnd (input : InputId)
  -- the host on the memory bus
  | memoryWrite (addr : WordAddr) (data : Word) (enables : BitVec 4)
  | sendTapWrite (addr : WordAddr) (data : Word)
  | argumentWrite (cell : CellId) (word : Fin 7) (data : Word) (enables : BitVec 4)
  | eventHeadRead
  -- code writes
  | codeZero (cell : CellId) (tag : BitVec 16) (spare : Byte)
  | unknownOrder (cell : CellId) (tag : BitVec 16) (spare : Byte) (code : Byte)
  | trim (cell : CellId) (tag : BitVec 16) (spare : Byte)
  | want (cell : CellId) (tag : BitVec 16) (spare : Byte)
  | seek (cell : CellId) (tag : BitVec 16) (spare : Byte)
  | release (cell : CellId) (tag : BitVec 16) (spare : Byte)
  | bind (cell : CellId) (tag : BitVec 16) (spare : Byte)
  | talk (cell : CellId) (tag : BitVec 16) (spare : Byte)
  | talkset (cell : CellId) (tag : BitVec 16) (spare : Byte)
  | talkbind (cell : CellId) (tag : BitVec 16) (spare : Byte)
  | loss (cell : CellId) (tag : BitVec 16) (spare : Byte)
  | step (cell : CellId) (tag : BitVec 16) (spare : Byte)
  | unclaim (cell : CellId) (tag : BitVec 16) (spare : Byte)
  | allot (cell : CellId) (tag : BitVec 16) (spare : Byte)
  | announce (cell : CellId) (tag : BitVec 16) (spare : Byte)
  | present (cell : CellId) (tag : BitVec 16) (spare : Byte)
  | drill (cell : CellId) (tag : BitVec 16) (spare : Byte)
  | relock (cell : CellId) (tag : BitVec 16) (spare : Byte)
  | clearages (cell : CellId) (tag : BitVec 16) (spare : Byte)
  | restart (cell : CellId) (tag : BitVec 16) (write : RestartWrite)
deriving DecidableEq, Repr

end Sys2Proof
end

