-- ==== Sys2Proof/Decode.lean ====
section
/-! DEFINITION. The table of this block gives none of its rows a word: spec/opcode_table.json lists 56 rows and every
"fields" of it is empty, so no number spells a command. -/

namespace Sys2Proof

/-- The command that the table's bits spell: none, for every word, since no row of the table gives bits. -/
def decodeTableWord (_nbits _w : Nat) : Option Instr := none

end Sys2Proof
end

