-- ==== Sys2Proof/Config.lean ====
section
/-! DEFINITION. The free values of the model: what the manual leaves open and a rule still uses. Each is an opaque constant
without a body, so that no proof can know its value. -/

namespace Sys2Proof.Config

/-! The serial encoding of each field of a burst (R2): the bits of the field in the order in which they enter the check code. R3 names
the fields and their order, and leaves the encoding of each to the data sheet (log entry 14). -/

/-- The bits of the origin. -/
opaque originBits : NodeId → List Bool
/-- The bits of the unit serial. -/
opaque serialBits : Word → List Bool
/-- The bits of the period number. -/
opaque periodBits : Period → List Bool
/-- The bits of the plan version. -/
opaque versionBits : Version → List Bool
/-- The bits of the hop count. -/
opaque hopBits : Fin 8 → List Bool
/-- The bits of the cadence report. -/
opaque cadenceBits : CadenceReport → List Bool
/-- The bits of the port report. -/
opaque portsBits : PortReport → List Bool
/-- The bits of the aux fragment. -/
opaque auxBits : Aux → List Bool
/-- The bits of the answer. -/
opaque answerBits : Option Answer → List Bool
/-- The bits of the slot list. -/
opaque slotsBits : List Slot → List Bool

/-- The value a cell shows after a refusal whose rule gives no value (R181, R182): the n-th such refusal since State.reset. -/
opaque failedValue : Nat → Word

/-- Whether a copy whose period number differs from the present period by exactly 2^31 counts as the earlier one in its age.
R1 makes each of the two periods earlier than the other and R61 does not say which sign the age takes. -/
opaque halfRangeIsPast : Period → Bool

/-- Which of two things is taken first where a rule lets them fall together, "either may be taken first": a step that falls due
at a tick and the burst of that tick (R25, R45, R53, R89, R164, R186), a message and an answer of one copy (R176). The argument
counts the draws since State.reset; true takes the first-named thing first. -/
opaque takenFirst : Nat → Bool

end Sys2Proof.Config
end

