-- ==== Sys2Proof/Machine/State.lean ====
section
/-! DEFINITION. The state of the WK640 as plain data, block by block, each with its value after a full reset, and
`State.reset`. -/

namespace Sys2Proof.Machine

/-- What stops the machine with a fault: nothing. The manual gives every command an effect in every state, and every word
address of the bus exists, so no meaning raises a fault. -/
inductive Fault where
deriving DecidableEq

/-- Why a command is refused. -/
inductive Refusal where
  /-- Raised by an arm of `exec` whose row has no meaning yet (safe); no arm of this model raises it. -/
  | notModelled (mnemonic : String)
deriving DecidableEq, Repr

/-! ## Host memory and the part as a whole -/

/-- The host's sample memory behind the part (R101), by byte address: byte `4 * w + k` is byte lane `k` (bits 8k to 8k+7) of
word `w`. Strictly rising addresses, and no entry of the value 0 that an unlisted byte reads as. -/
abbrev Memory := List Host.Cell

/-- Modes of the part (R190 to R194). -/
inductive Mode where
  | loading
  | run
  | halted
deriving DecidableEq, Repr

/-- Start causes (R190). -/
inductive StartCause where
  | power
  | pin
  | order
deriving DecidableEq, Repr

/-- The Configuration Loader's state (R190, R191): held at the start of LOADING while RESET is asserted, reading the image,
or finished. -/
inductive LoadState where
  | held
  | reading
  | finished
deriving DecidableEq, Repr

/-- Load faults (R191). -/
inductive LoadFault where
  | format
  | length
  | sum
  | identity
  | timing
  | plan
  | taps
  | list
deriving DecidableEq, Repr

/-- Mode, start cause, load fault, load state and the straps as taken (R122, R190). -/
structure System where
  mode      : Mode := .loading
  cause     : StartCause := .power
  loadFault : Option LoadFault := none
  load      : LoadState := .held
  strapBase : Fin 16 := 0
deriving DecidableEq, Repr

/-- The configuration items that hold for the whole of RUN (R192); all 0 until an image is placed (R194). -/
structure Settings where
  nodeId      : NodeId := 0
  serial      : Word := 0
  rank        : Fin 16 := 0
  authority   : NodeId := 0
  rate96      : Bool := false
  source      : RefSource := .internal
  holdover    : Nat := 0
  blockLen    : Nat := 0
  blockWidth  : Nat := 0
  preampCount : Nat := 0
  initial     : Vector PreStep 64 := Vector.replicate 64 0
  settle      : Nat := 0
deriving DecidableEq, Repr

/-! ## Ring ports (R21) -/

/-- Transmit modes (R21). -/
inductive TxMode where
  | normal
  | silent
  | corrupt
deriving DecidableEq, Repr

/-- A burst in a transmit queue, marked when it is a forwarded copy (R33). -/
structure TxEntry where
  burst     : Burst
  forwarded : Bool
deriving DecidableEq, Repr

/-- A burst as it left a port, with the check word computed there (R3, R28). -/
structure WireBurst where
  burst : Burst
  check : Word
deriving DecidableEq, Repr

/-- One ring port (R21). `leaving` is the transmit mode in which the head of the queue started to leave (R29), `sent` the
burst that last left the port; both are the model's own. -/
structure PortState where
  rx            : RxState := .dark
  light         : Bool := false
  goodRun       : Nat := 0
  acquireTimer  : Option Nat := none
  windowTicks   : Nat := 0
  windowBad     : Nat := 0
  quarTimer     : Option Nat := none
  txMode        : TxMode := .normal
  drill         : Nat := 0
  queue         : List TxEntry := []
  leaving       : Option TxMode := none
  nGood         : Word := 0
  nBad          : Word := 0
  nForwarded    : Word := 0
  nDropped      : Word := 0
  nLap          : Word := 0
  nQuarantine   : Word := 0
  sent          : Option WireBurst := none
deriving DecidableEq, Repr

/-- Both ports, the join quiet count and the ID clash period (R21). -/
structure RingPorts where
  port      : PerPort PortState := ⟨{}, {}⟩
  joinQuiet : Nat := 0
  idClash   : Option Period := none
deriving DecidableEq, Repr

/-! ## Cadence Unit (R39) -/

/-- How a reference copy was judged (R42). -/
inductive Judgement where
  | within
  | outside
  | unjudged
deriving DecidableEq, Repr

/-- A reference copy taken (R42, R43): its port, its period, its age, and how it was judged. Implied state of the rules that
compare the two copies of one reference burst, which may arrive any number of periods apart. -/
structure RefNote where
  port   : Port
  period : Period
  age    : Int
  judged : Judgement
deriving DecidableEq, Repr

/-- The Cadence Unit (R39). `tickMove` is the displacement of the next tick in age units that slewing and word-clock moves
have ordered (R45, R47, R55), positive for later; `refLog` holds the reference copies judged under the present reference and
numbering, newest first, as R42 and R43 imply (log entry 23), and `wckReturn` marks a timing node whose next word-clock edge is
judged as a return of WCK (R47). The rank table's own entry is none until an image is placed, since no rank is configured before
(DESIGN CHOICE, log entry 28). -/
structure Cadence where
  period       : Period := 0
  state        : CadenceState := .free
  role         : Role := .follower
  ref          : Option NodeId := none
  decisionOpen : Bool := false
  pathAge      : PerPort (Option Int) := ⟨none, none⟩
  lockCount    : Nat := 0
  silence      : Nat := 0
  holdover     : Option Nat := none
  stepArmed    : Bool := false
  rank         : Vector (Option (Fin 16)) 8 := Vector.replicate 8 none
  settled      : Vector (PerPort (Option Int)) 8 := Vector.replicate 8 ⟨none, none⟩
  openToSelf   : Bool := false
  refLog       : List RefNote := []
  wckReturn    : Bool := false
  tickMove     : Int := 0
deriving DecidableEq, Repr

/-! ## Burst Selector (R60) -/

/-- States of an Alignment Store entry (R60). -/
inductive EntryState where
  | empty
  | held
  | presented
deriving DecidableEq, Repr

/-- An Alignment Store entry (R60). -/
structure AlignEntry where
  state   : EntryState := .empty
  period  : Period := 0
  slots   : List Slot := []
  version : Version := 0
  unsync  : Bool := false
deriving DecidableEq, Repr

/-- A path record (R60). -/
structure PathRecord where
  lastAge : Option Int := none
  maxAge  : Option Int := none
  copies  : Word := 0
  late    : Word := 0
  hop     : Option Nat := none
  silence : Nat := 96
deriving DecidableEq, Repr

/-- An origin record (R60). -/
structure OriginRecord where
  member   : Bool := false
  serial   : Word := 0
  silence  : Nat := 96
  outside  : Word := 0
  missing  : Word := 0
  present  : Bool := false
  cadence  : Option CadenceReport := none
  ports    : Option PortReport := none
deriving DecidableEq, Repr

/-- The lap monitor of one port (R60, R78). -/
structure LapRecord where
  silence : Nat := 96
  lastAge : Option Int := none
  maxAge  : Option Int := none
deriving DecidableEq, Repr

/-- Ring states (R60). -/
inductive RingState where
  | alone
  | closed
  | open
deriving DecidableEq, Repr

/-- The Burst Selector (R60). `deferred` holds the return side of a boundary tick back until the change of presentation delay
that falls at it has been taken (R70); it is the model's own. -/
structure Selector where
  store    : Vector (Vector AlignEntry 32) 8 := Vector.replicate 8 (Vector.replicate 32 {})
  delay    : Nat := 0
  pending  : Option Nat := none
  next     : Period := 0
  deferred : Bool := false
  paths    : Vector (PerPort PathRecord) 8 := Vector.replicate 8 ⟨{}, {}⟩
  origins  : Vector OriginRecord 8 := Vector.replicate 8 {}
  epoch    : Word := 0
  lap      : PerPort LapRecord := ⟨{}, {}⟩
  ring     : RingState := .alone
  advice   : Nat := 2
deriving DecidableEq, Repr

/-! ## Plan Store (R8) -/

/-- An allotment (R5). -/
structure Allotment where
  owner : NodeId
  first : Nat
  count : Nat
  kind  : SlotKind
deriving DecidableEq, Repr

/-- A plan with its version: allotments in ascending order of first slot (R5, R7). -/
structure Plan where
  version : Version := 0
  allots  : List Allotment := []
deriving DecidableEq, Repr

/-- A staged plan (R8): its announced E, the effective period at which it will be adopted (E, or what R15 or R20 set), and
whether it was announced here. -/
structure StagedPlan where
  plan      : Plan
  e         : Period
  effective : Period
  announced : Bool
deriving DecidableEq, Repr

/-- A pending repair with the period for which it takes effect (R16). -/
structure Repair where
  plan      : Plan
  effective : Period
deriving DecidableEq, Repr

/-- An assembly that holds fragments (R14): version, E (of a staged assembly), received marks and body bytes. -/
structure Assembly where
  version : Version
  e       : Period
  marks   : Vector Bool 6
  bodies  : Vector (Vector Byte 12) 6
deriving DecidableEq, Repr

/-- The Plan Store (R8). An assembly of `none` is empty. `expiryDue` says that the tick of E + 96 has come for the staged
assembly and that its end has not been taken yet (R18); it is the model's own (log entry 53). -/
structure PlanStore where
  current     : Plan := {}
  adopted     : Period := 0
  prior       : Option Plan := none
  staged      : Option StagedPlan := none
  repair      : Option Repair := none
  draft       : Vector (Option Allotment) 16 := Vector.replicate 16 none
  nextStaged  : Fin 6 := 0
  nextCurrent : Fin 6 := 0
  asmStaged   : Option Assembly := none
  asmCurrent  : Option Assembly := none
  expiryDue   : Bool := false
  mismatch    : Vector (Option Period) 8 := Vector.replicate 8 none
deriving DecidableEq, Repr

/-! ## Message Unit (R82) -/

/-- Outbox entry states (R82). -/
inductive OutState where
  | waiting
  | inFlight
  | backoff
deriving DecidableEq, Repr

/-- The originator of a message (R82): an order cell (with the record that its order names), a return record, or none. -/
inductive Originator where
  | cell (c : CellId) (r : RecordId)
  | record (r : RecordId)
  | nobody
deriving DecidableEq, Repr

/-- An outbox entry (R82). -/
structure OutEntry where
  dest     : NodeId
  body     : MsgBody
  toggle   : Option Bool := none
  attempts : Nat := 0
  busy     : Nat := 0
  state    : OutState := .waiting
  deadline : Nat := 0
  resynced : Bool := false
  orig     : Originator
deriving DecidableEq, Repr

/-- The Message Unit (R82). A toggle of 1 is `true`; a last-delivered record is the stored answer, which holds its toggle. -/
structure MessageUnit where
  outbox    : List OutEntry := []
  toggle    : Vector Bool 8 := Vector.replicate 8 false
  delivered : Vector (Option Answer) 8 := Vector.replicate 8 none
  answers   : List Answer := []
  lastTaken : Vector (Option Period) 8 := Vector.replicate 8 none
deriving DecidableEq, Repr

/-! ## Return Processor (R115, R123, R145, R172) -/

/-- Claim states of a return record (R123). -/
inductive ClaimState where
  | none
  | asking
  | held
  | denied
deriving DecidableEq, Repr

/-- A ramp (R123): the multiplier, its target, its step and its length. -/
structure Ramp where
  value  : Nat := 0
  target : Nat := 0
  step   : Nat := 1
  length : Nat := 1
deriving DecidableEq, Repr

/-- A return record (R123, R172); the reset values are those of a record that no image lists. `main.value` is C and
`talkRamp.value` is Ct. -/
structure Record where
  binding   : Option (Fin 256) := none
  kind      : Option SlotKind := none
  last      : Option (NodeId × SlotKind) := none
  trim      : Int := 0
  want      : Option PreStep := none
  claim     : ClaimState := .none
  seek      : Bool := false
  policy    : LossPolicy := .fade
  fadeOut   : Nat := 48
  fadeIn    : Nat := 96
  mask      : BitVec 4 := 0
  level     : Int := 0
  duck      : Int := 0
  aLast     : Option PreStep := none
  main      : Ramp := {}
  talkRamp  : Ramp := {}
  heldSample : Sample := 0
  present   : Bool := false
  ducked    : Bool := false
  limited   : Bool := false
  slotInput : Option (NodeId × InputId) := none
  claimDue  : Bool := false
deriving DecidableEq, Repr

/-- Talk entry states (R145). -/
inductive TalkState where
  | quiet
  | keyed
  | holding
deriving DecidableEq, Repr

/-- A talk entry (R145). -/
structure TalkEntry where
  binding : Option (Fin 256) := none
  state   : TalkState := .quiet
  hold    : Option Nat := none
  owner   : Option NodeId := none
  sample  : Sample := 0
deriving DecidableEq, Repr

/-- An output tag (R135). -/
structure OutTag where
  valid    : Bool
  key      : Bool
  overload : Bool
  loss     : Bool
  origin   : NodeId
deriving DecidableEq, Repr

/-- An entry of a receive bank (R115). -/
inductive BankEntry where
  | pass
  | output (sample : Sample) (tag : OutTag)
deriving DecidableEq, Repr

/-- The Return Processor (R115, R123, R145). Bank `b`, frame `f`, record `r`; frames at and above D are not used. -/
structure ReturnUnit where
  records : Vector Record 128 := Vector.replicate 128 {}
  talk    : Vector TalkEntry 4 := Vector.replicate 4 {}
  attack  : Nat := 48
  release : Nat := 480
  hold    : Nat := 2400
  banks   : Vector (Vector (Vector BankEntry 128) 32) 8 :=
    Vector.replicate 8 (Vector.replicate 32 (Vector.replicate 128 .pass))
deriving DecidableEq, Repr

/-! ## Preamp Unit (R157) -/

/-- Preamp input states (R157). -/
inductive InputState where
  | ready
  | settling
  | faulted
deriving DecidableEq, Repr

/-- Who made a step request (R157). -/
inductive Requester where
  | node (n : NodeId)
  | loc
deriving DecidableEq, Repr

/-- A preamp input (R157); a step of `none` is UNKNOWN. -/
structure PreInput where
  confirmed : Option PreStep := none
  stamp     : Option PreStep := none
  pending   : Option (PreStep × Period) := none
  state     : InputState := .ready
  claimant  : Option NodeId := none
  requester : Option Requester := none
  sweep     : Bool := false
deriving DecidableEq, Repr

/-- A preamp queue entry (R157). -/
structure PreRequest where
  input : InputId
  step  : PreStep
  who   : Requester
deriving DecidableEq, Repr

/-- Preamp port states (R157). -/
inductive PrePort where
  | idle
  | sending
  | awaiting
  | retry
deriving DecidableEq, Repr

/-- The transaction of the preamp port (R157). -/
structure Transaction where
  input   : InputId
  step    : PreStep
  attempt : Nat
  timer   : Nat
deriving DecidableEq, Repr

/-- A character on the preamp line (R161): eight data bits, a parity bit, and the level of the stop bit, true at rest. The start
bit, and the order of the data bits, are in `Character.frame`. -/
structure Character where
  data   : Byte
  parity : Bool
  stop   : Bool
deriving DecidableEq, Repr

/-- The Preamp Unit (R157). `line` holds the characters of the latest attempt that the part has put on the preamp port (R161,
R162); it is the model's own record of that output. -/
structure PreampUnit where
  inputs : Vector PreInput 64 := Vector.replicate 64 {}
  queue  : List PreRequest := []
  port   : PrePort := .idle
  trans  : Option Transaction := none
  line   : List Character := []
deriving DecidableEq, Repr

/-! ## Order and Report Unit (R181, R186) -/

/-- Event kinds (R197). -/
inductive EventKind where
  | config
  | portState
  | acquireFailed
  | quarantine
  | ringState
  | rosterJoin
  | rosterLeave
  | idClash
  | timingChange
  | cadenceState
  | stepNeeded
  | planAdopted
  | planMismatch
  | sendLate
  | sendUnderrun
  | returnLoss
  | returnRestored
  | messageFailed
  | claimLost
  | preampFault
  | orderDone
deriving DecidableEq, Repr

/-- An event (R186). -/
structure Event where
  kind    : EventKind
  period  : Period
  subject : Nat
  value   : Word
deriving DecidableEq, Repr

/-- Order cell states (R181). -/
inductive CellState where
  | idle
  | running
  | done
  | failed
deriving DecidableEq, Repr

/-- Refusal and completion reasons of a cell (R196). -/
inductive Reason where
  | none
  | unknownOrder
  | noRecord
  | noInput
  | notAuthority
  | overlap
  | capacity
  | outboxFull
  | notHolder
  | held
  | busy
  | unanswered
  | inProgress
  | notRunning
deriving DecidableEq, Repr

/-- What a RUNNING cell waits for (R183). -/
inductive WaitFor where
  | adoption
  | boundary
  | message
deriving DecidableEq, Repr

/-- The order in progress of a RUNNING cell (R181): the code byte of an order, its argument copies, and what it waits for. -/
structure OrderInProgress where
  code  : Byte
  args  : Vector Word 7
  waits : WaitFor
deriving DecidableEq, Repr

/-- An order cell (R181) with the part's own copy of its seven argument words (R180). -/
structure OrderCell where
  state   : CellState := .idle
  code    : Byte := 0
  tag     : BitVec 16 := 0
  reason  : Reason := .none
  value   : Word := 0
  overrun : Bool := false
  order   : Option OrderInProgress := none
  args    : Vector Word 7 := Vector.replicate 7 0
deriving DecidableEq, Repr

/-- The Order and Report Unit (R181, R186, R188). `readWord` is the word the last EVENT_HEAD_READ returned on the bus, and
`freeCount` the number of free values used (log entries 9, 47); both are the model's own. -/
structure OrderUnit where
  cells       : Vector OrderCell 4 := Vector.replicate 4 {}
  events      : List Event := []
  overflow    : Bool := false
  latchPeriod : Period := 0
  latchValue  : Word := 0
  attention   : Word := 0
  readWord    : Word := 0
  freeCount   : Nat := 0
deriving DecidableEq, Repr

/-! ## Bus Tap Unit and Send Store (R103, R109, R116) -/

/-- A tap with its late mark and its two counts (R103, R111, R120). -/
structure Tap where
  kind      : TapKind
  base      : Nat
  chans     : Nat
  first     : Nat
  just      : Justification
  lateMark  : Bool := false
  lateCount : Word := 0
  underrun  : Word := 0
deriving DecidableEq, Repr

/-- An entry of a send bank (R109). -/
structure SendEntry where
  sample   : Sample := 0
  key      : Bool := false
  overload : Bool := false
  written  : Bool := false
deriving DecidableEq, Repr

/-- A send bank (R109): its block number and its frames of 96 positions; frames at and above D are not used. -/
structure SendBank where
  block  : Nat := 0
  frames : Vector (Vector SendEntry 96) 32 := Vector.replicate 32 (Vector.replicate 96 {})
deriving DecidableEq, Repr

/-- The Bus Tap Unit and the Send Store. `frozen` is the half that is FROZEN (the other is FILLING), `strobe` the age units
for which BLOCK stays high (none: low), `shown` the block each return half shows, `j` the J of R116 and `eligible` the period
m of R118 while the first blocks after a restart are still awaited (none: every block is eligible). -/
structure TapUnit where
  taps     : List Tap := []
  banks    : Vector SendBank 2 := Vector.replicate 2 {}
  frozen   : Fin 2 := 0
  strobe   : Option Nat := none
  shown    : Vector (Option Nat) 2 := Vector.replicate 2 none
  j        : Nat := 0
  eligible : Option Period := none
deriving DecidableEq, Repr

/-! ## The part and the machine -/

/-- All state of the part itself. Its default value is the state of every block after a full reset. -/
structure Chip where
  sys : System := {}
  cfg : Settings := {}
  rng : RingPorts := {}
  cad : Cadence := {}
  sel : Selector := {}
  pln : PlanStore := {}
  msg : MessageUnit := {}
  ret : ReturnUnit := {}
  pre : PreampUnit := {}
  ord : OrderUnit := {}
  tap : TapUnit := {}
deriving DecidableEq, Repr

/-- The machine: the commands that wait, the host's memory behind the part, the BASE strap pins as they stand, and the part. -/
structure State where
  pending : List Instr
  mem     : Memory
  straps  : Fin 16
  chip    : Chip
deriving DecidableEq, Repr

/-- The part right after power-on (R186, R190): every block at its reset value, held at the start of LOADING, with the
CONFIG (reset) event of the start cause POWER queued. -/
def Chip.atPowerOn : Chip :=
  { ord := { events := [{ kind := .config, period := 0, subject := 0, value := 0 }] } }

/-- The machine right after power-on: no command waits, memory lists nothing, the straps read 0. -/
def State.reset : State :=
  { pending := [], mem := [], straps := 0, chip := Chip.atPowerOn }

end Sys2Proof.Machine
end

