-- ==== Sys2Proof/Machine/Codes.lean ====
section
/-! DEFINITION. The numeric codes of the host-visible layouts (R196, R197, R198, R199). -/

namespace Sys2Proof.Machine

/-- Port code (R197): 0 East, 1 West. -/
def portCode : Port → Nat
  | .east => 0
  | .west => 1

/-- Receive state code (R197). -/
def rxCode : RxState → Nat
  | .dark => 0
  | .acquire => 1
  | .up => 2
  | .quarantine => 3

/-- Cadence state code (R197). -/
def cadenceCode : CadenceState → Nat
  | .free => 0
  | .locking => 1
  | .locked => 2
  | .holdover => 3
  | .stepPending => 4

/-- Ring state code (R197). -/
def ringCode : RingState → Nat
  | .alone => 0
  | .closed => 1
  | .open => 2

/-- Node id code (R197): 15 for none. -/
def nodeCode : Option NodeId → Nat
  | none => 15
  | some n => n.val

/-- Start cause code (R197). -/
def causeCode : StartCause → Nat
  | .power => 0
  | .pin => 1
  | .order => 2

/-- Mode code (R198). -/
def modeCode : Mode → Nat
  | .loading => 0
  | .run => 1
  | .halted => 2

/-- Load fault code (R191): 0 for a good image. -/
def faultCode : Option LoadFault → Nat
  | none => 0
  | some .format => 1
  | some .length => 2
  | some .sum => 3
  | some .identity => 4
  | some .timing => 5
  | some .plan => 6
  | some .taps => 7
  | some .list => 8

/-- Event kind code (R197). -/
def eventCode : EventKind → Nat
  | .config => 1
  | .portState => 2
  | .acquireFailed => 3
  | .quarantine => 4
  | .ringState => 5
  | .rosterJoin => 6
  | .rosterLeave => 7
  | .idClash => 8
  | .timingChange => 9
  | .cadenceState => 10
  | .stepNeeded => 11
  | .planAdopted => 12
  | .planMismatch => 13
  | .sendLate => 14
  | .sendUnderrun => 15
  | .returnLoss => 16
  | .returnRestored => 17
  | .messageFailed => 18
  | .claimLost => 19
  | .preampFault => 20
  | .orderDone => 21

/-- Cell state code (R196). -/
def cellCode : CellState → Nat
  | .idle => 0
  | .running => 1
  | .done => 2
  | .failed => 3

/-- Reason code (R196). -/
def reasonCode : Reason → Nat
  | .none => 0
  | .unknownOrder => 1
  | .noRecord => 2
  | .noInput => 3
  | .notAuthority => 4
  | .overlap => 5
  | .capacity => 6
  | .outboxFull => 7
  | .notHolder => 8
  | .held => 9
  | .busy => 10
  | .unanswered => 11
  | .inProgress => 12
  | .notRunning => 13

/-- Message kind code in the value of MESSAGE FAILED (R197). -/
def msgCode : MsgKind → Nat
  | .claim => 0
  | .release => 1
  | .gain => 2
  | .drop => 3

/-- Slot kind code (R196, R199). -/
def kindCode : SlotKind → Nat
  | .mic => 0
  | .mix => 1
  | .talk => 2
  | .line => 3

/-- The slot kind a code names, if it names one (R184: a kind above 3 names none). -/
def kindOfCode : Nat → Option SlotKind
  | 0 => some .mic
  | 1 => some .mix
  | 2 => some .talk
  | 3 => some .line
  | _ => none

/-- Loss policy code (R196). -/
def policyCode : LossPolicy → Nat
  | .fade => 0
  | .mute => 1
  | .pass => 2

/-- The loss policy a code names, if any (R184). -/
def policyOfCode : Nat → Option LossPolicy
  | 0 => some .fade
  | 1 => some .mute
  | 2 => some .pass
  | _ => none

/-- Transmit mode code (R196). -/
def txCode : TxMode → Nat
  | .normal => 0
  | .silent => 1
  | .corrupt => 2

/-- The transmit mode a code names, if any (R184). -/
def txOfCode : Nat → Option TxMode
  | 0 => some .normal
  | 1 => some .silent
  | 2 => some .corrupt
  | _ => none

/-- The port a code names, if any (R184). -/
def portOfCode : Nat → Option Port
  | 0 => some .east
  | 1 => some .west
  | _ => none

/-- Claim state code (R199). -/
def claimCode : ClaimState → Nat
  | .none => 0
  | .asking => 1
  | .held => 2
  | .denied => 3

/-- Preamp step code (R1): 63 for UNKNOWN or none. -/
def stepCode : Option PreStep → Nat
  | none => 63
  | some s => s.val

/-- Preamp input state code (R199). -/
def inputCode : InputState → Nat
  | .ready => 0
  | .settling => 1
  | .faulted => 2

/-- Last requester code (R199): 8 LOCAL, 15 none. -/
def requesterCode : Option Requester → Nat
  | none => 15
  | some .loc => 8
  | some (.node n) => n.val

/-- Binding code (R139, R154): 256 for none. -/
def bindingCode : Option (Fin 256) → Nat
  | none => 256
  | some s => s.val

end Sys2Proof.Machine
end

