-- ==== Sys2Proof/Machine/Ops.lean ====
section
/-! DEFINITION. The shared operations: period order, clamping and rounding, the age of a copy, the check code, the host's
memory, per-port and per-index access, posting an event, and completing an order cell. -/

namespace Sys2Proof

/-- The partner of a port. -/
def otherPort : Port → Port
  | .east => .west
  | .west => .east

/-- The thing of one port. -/
def PerPort.get {α : Type} (v : PerPort α) : Port → α
  | .east => v.east
  | .west => v.west

/-- Replace the thing of one port. -/
def PerPort.put {α : Type} (v : PerPort α) (p : Port) (x : α) : PerPort α :=
  match p with
  | .east => { v with east := x }
  | .west => { v with west := x }

/-- Change the thing of one port. -/
def PerPort.upd {α : Type} (v : PerPort α) (p : Port) (f : α → α) : PerPort α :=
  v.put p (f (v.get p))

/-- Change both things of a pair in the same way. -/
def PerPort.both {α : Type} (v : PerPort α) (f : α → α) : PerPort α :=
  ⟨f v.east, f v.west⟩

/-- The kind of a message body (R83). -/
def MsgBody.kind : MsgBody → MsgKind
  | .claim _ => .claim
  | .release _ => .release
  | .gain _ _ => .gain
  | .drop _ => .drop

/-- The input of a message body (R83). -/
def MsgBody.input : MsgBody → InputId
  | .claim i => i
  | .release i => i
  | .gain i _ => i
  | .drop i => i

/-- The message that a burst carries for node `self` (R90). -/
def Burst.messageFor (self : NodeId) (b : Burst) : Option Message :=
  match b.aux with
  | .message m => if m.dest = self then some m else none
  | _ => none

/-- The answer that a burst carries for node `self` (R90). -/
def Burst.answerFor (self : NodeId) (b : Burst) : Option Answer := b.answer.filter (fun x => x.target = self)

end Sys2Proof

namespace Sys2Proof.Machine

/-! ## Periods (R1) -/

/-- Period `a` is later than period `b` (R1). -/
def later (a b : Period) : Bool :=
  1 ≤ (a - b).toNat && (a - b).toNat ≤ 2147483647

/-- Period `a` is earlier than period `b` (R1). -/
def earlier (a b : Period) : Bool :=
  2147483648 ≤ (a - b).toNat

/-- Period `a` is `b` or later. -/
def atOrAfter (a b : Period) : Bool := a == b || later a b

/-- Period `a` is `b` or earlier. -/
def atOrBefore (a b : Period) : Bool := a == b || earlier a b

/-- Period `m` is none, or lies 96 periods or more before the period `now` (R19, R36). -/
def quiet96 (m : Option Period) (now : Period) : Bool :=
  match m with
  | none => true
  | some m => earlier m now && 96 ≤ (now - m).toNat

/-- The index `n mod 32` of a period's Alignment Store entry (R60). -/
def mod32 (n : Period) : Fin 32 := ⟨n.toNat % 32, Nat.mod_lt _ (by decide)⟩

/-! ## Numbers (R1) -/

/-- Clamp a signed value to `lo..hi`. -/
def clampInt (lo hi x : Int) : Int := max lo (min hi x)

/-- Clamp an unsigned value to `lo..hi`. -/
def clampNat (lo hi x : Nat) : Nat := max lo (min hi x)

/-- Clamp a step to 0 to 60 (R159). -/
def clampStep (x : Nat) : PreStep := ⟨min x 60, by omega⟩

/-- `a / d` to the nearest integer, ties away from zero (R1). -/
def roundDiv (a : Int) (d : Nat) : Int :=
  a.sign * ((2 * a.natAbs + d) / (2 * d) : Nat)

/-- `ceil(a / b)` for naturals. -/
def ceilDiv (a b : Nat) : Nat := (a + (b - 1)) / b

/-- Saturate to the sample range (R1). -/
def sat24 (x : Int) : Sample :=
  BitVec.ofInt 24 (clampInt (-8388608) 8388607 x)

/-- An 8-bit number of a message value. -/
def toValue (n : Nat) : Fin 256 := Fin.ofNat 256 n

/-! ## Tables -/

/-- Change entry `i` of a table. -/
def upd {α : Type} {n : Nat} (v : Vector α n) (i : Fin n) (f : α → α) : Vector α n :=
  v.set i (f v[i])

/-- Fold a step over the indices 0 to n − 1 in ascending order. -/
def forEach {σ : Type} (n : Nat) (f : Fin n → σ → σ) (s : σ) : σ :=
  (List.finRange n).foldl (fun acc i => f i acc) s

/-! ## The age of a copy (R61) -/

/-- The signed difference in periods between the present period and `n`, with half-range ordering. At a difference of exactly
2^31 the sign is a free value. -/
def periodsSince (now n : Period) : Int :=
  if (now - n).toNat = 2147483648 then
    (if Config.halfRangeIsPast n then 2147483648 else -2147483648)
  else (now - n).toInt

/-- The age of a burst of period `n` that arrives `elapsed` whole age units after the tick of the present period (R61). -/
def ageOf (now n : Period) (elapsed : Nat) : Int :=
  clampInt (-32768) 32767 (64 * periodsSince now n + elapsed)

/-! ## The check word (R3) -/

/-- One bit of the 32-bit cyclic redundancy check with generator 04C11DB7h (R3). -/
def crcBit (r : Word) (b : Bool) : Word :=
  if r.msb != b then (r <<< 1) ^^^ 0x04C11DB7#32 else r <<< 1

/-- The check code over a sequence of bits: initial value FFFFFFFFh, final remainder inverted (R3). -/
def crc32 (bits : List Bool) : Word :=
  ~~~ bits.foldl crcBit 0xFFFFFFFF#32

/-- The bits over which a burst's check word runs: every other field, in the order of the table in R2 (R3). -/
def burstBits (b : Burst) : List Bool :=
  Config.originBits b.origin ++ Config.serialBits b.serial ++ Config.periodBits b.period ++ Config.versionBits b.version ++
    Config.hopBits b.hop ++ Config.cadenceBits b.cadence ++ Config.portsBits b.ports ++ Config.auxBits b.aux ++
    Config.answerBits b.answer ++ Config.slotsBits b.slots

/-- The check word of a burst (R3). -/
def checkWord (b : Burst) : Word := crc32 (burstBits b)

/-- A burst that arrived with the check word `check` is a good-check burst (R3). -/
def goodCheck (b : Burst) (check : Word) : Bool := checkWord b == check

/-! ## The host's memory (R101) -/

/-- What memory byte `a` holds; a byte that nothing has written reads as 0 (DESIGN CHOICE, log entry 3). -/
def memByte (m : Memory) (a : Nat) : Byte :=
  match m with
  | [] => 0
  | (k, v) :: rest => if k = a then v else memByte rest a

/-- Remove the entry of byte `a`. -/
def memErase (m : Memory) (a : Nat) : Memory :=
  match m with
  | [] => []
  | (k, v) :: rest => if k = a then rest else (k, v) :: memErase rest a

/-- Place the entry of byte `a` in ascending order. -/
def memPlace (m : Memory) (a : Nat) (b : Byte) : Memory :=
  match m with
  | [] => [(a, b)]
  | (k, v) :: rest =>
    if a < k then (a, b) :: (k, v) :: rest
    else if k = a then (a, b) :: rest
    else (k, v) :: memPlace rest a b

/-- Store one byte, keeping the canonical form. -/
def memPut (m : Memory) (a : Nat) (b : Byte) : Memory :=
  if b = 0 then memErase m a else memPlace m a b

/-- Byte lane `k` (0 to 3) of a word: bits 8k to 8k+7. -/
def lane (w : Word) (k : Nat) : Byte := w.extractLsb' (8 * k) 8

/-- Store the enabled byte lanes of a word (R101). -/
def memWrite (m : Memory) (addr : Nat) (data : Word) (enables : BitVec 4) : Memory :=
  (List.range 4).foldl
    (fun m k => if enables.getLsbD k then memPut m (4 * addr + k) (lane data k) else m) m

/-- What a read of a memory word returns. -/
def memWord (m : Memory) (addr : Nat) : Word :=
  memByte m (4 * addr + 3) ++ memByte m (4 * addr + 2) ++ memByte m (4 * addr + 1) ++ memByte m (4 * addr)

/-- The canonical form of memory: addresses strictly rising, and no entry of the value 0. -/
def Memory.wf (m : Memory) : Bool :=
  match m with
  | [] => true
  | [(_, v)] => v != 0
  | (k, v) :: (k', v') :: rest => v != 0 && k < k' && Memory.wf ((k', v') :: rest)

/-- The enabled byte lanes of `new` over `old` (R180). -/
def mergeLanes (old new : Word) (enables : BitVec 4) : Word :=
  let pick (k : Nat) : Byte := if enables.getLsbD k then lane new k else lane old k
  pick 3 ++ pick 2 ++ pick 1 ++ pick 0

/-! ## Things that fall together

Where a rule lets two things fall together and either be taken first, the order is a free value (log entry 47). -/

/-- One draw of a free order is counted. -/
def Chip.drawn (c : Chip) : Chip := { c with ord := { c.ord with freeCount := c.ord.freeCount + 1 } }

/-- A step that is due is taken now, or is left for later: the order is free. -/
def Chip.takeFirst (due : Bool) (f : Chip → Chip) (c : Chip) : Chip :=
  if due then (if Config.takenFirst c.ord.freeCount then f c.drawn else c.drawn) else c

/-- Two things that fall together are both taken, in a free order. -/
def Chip.eitherOrder (f g : Chip → Chip) (c : Chip) : Chip :=
  if Config.takenFirst c.ord.freeCount then g (f c.drawn) else f (g c.drawn)

/-! ## Events (R186) -/

/-- Append an event, or discard it and set the overflow mark when 32 are held (R186). -/
def OrderUnit.post (o : OrderUnit) (e : Event) : OrderUnit :=
  if o.events.length < 32 then { o with events := o.events ++ [e] } else { o with overflow := true }

/-- Post an event at the present period, or at 0 outside RUN (R186). -/
def Chip.post (kind : EventKind) (subject : Nat) (value : Word) (c : Chip) : Chip :=
  let now : Period := if c.sys.mode = .run then c.cad.period else 0
  { c with ord := c.ord.post { kind := kind, period := now, subject := subject, value := value } }

/-- A natural number as an event or cell value. -/
def wordOf (n : Nat) : Word := BitVec.ofNat 32 n

/-- A signed number as an event or cell value. -/
def wordOfInt (x : Int) : Word := BitVec.ofInt 32 x

/-! ## Order cells (R181, R183) -/

/-- Complete cell `i`. A completion from RUNNING posts ORDER DONE with the reason code (R183); one that comes while the order is
being taken posts nothing. -/
def Chip.finish (i : CellId) (st : CellState) (r : Reason) (v : Word) (c : Chip) : Chip :=
  let cell := c.ord.cells[i]
  let cell' : OrderCell := { cell with state := st, reason := r, value := v, order := none }
  let c' : Chip := { c with ord := { c.ord with cells := c.ord.cells.set i cell' } }
  if cell.state = .running then c'.post .orderDone i.val (wordOf (reasonCode r)) else c'

/-- Complete cell `i` DONE with a value. -/
def Chip.done (i : CellId) (v : Word) (c : Chip) : Chip := c.finish i .done .none v

/-- Complete cell `i` FAILED with a reason and the value its rule gives. -/
def Chip.fail (i : CellId) (r : Reason) (v : Word) (c : Chip) : Chip := c.finish i .failed r v

/-- Complete cell `i` FAILED with a reason where no rule gives the value: the value is a free one. -/
def Chip.failFree (i : CellId) (r : Reason) (c : Chip) : Chip :=
  let v := Config.failedValue c.ord.freeCount
  let c' : Chip := { c with ord := { c.ord with freeCount := c.ord.freeCount + 1 } }
  c'.fail i r v

/-- Leave cell `i` RUNNING with its order in progress (R181). -/
def Chip.keepRunning (i : CellId) (o : OrderInProgress) (c : Chip) : Chip :=
  let cells := upd c.ord.cells i (fun cell => { cell with state := .running, order := some o })
  { c with ord := { c.ord with cells := cells } }

/-- Complete DONE, with value `v`, every RUNNING cell that waits for `w` (R69, R183). The cells complete, and post ORDER DONE, in
ascending cell number, which no rule states (DESIGN CHOICE, log entry 51). -/
def Chip.doneWaiting (w : WaitFor) (v : Word) (c : Chip) : Chip :=
  forEach 4 (fun i c =>
    if c.ord.cells[i].state = .running ∧ (c.ord.cells[i].order.map (·.waits)) = some w then c.done i v else c) c

/-- Complete FAILED, with reason `r` and a free value, every RUNNING cell that waits for `w` (R20), in ascending cell number (DESIGN
CHOICE, log entry 51). -/
def Chip.failWaiting (w : WaitFor) (r : Reason) (c : Chip) : Chip :=
  forEach 4 (fun i c =>
    if c.ord.cells[i].state = .running ∧ (c.ord.cells[i].order.map (·.waits)) = some w then c.failFree i r else c) c

/-- A command that acts on the part alone. -/
def State.onChip (f : Chip → Chip) (s : State) : State := { s with chip := f s.chip }

/-! ## The roster (R60, R74) -/

/-- This node's id. -/
def Chip.self (c : Chip) : NodeId := c.cfg.nodeId

/-- `n` is a member of this node's roster; this node always is (R60, R74). -/
def Chip.isMember (c : Chip) (n : NodeId) : Bool :=
  n == c.self || c.sel.origins[n].member

/-- The number of roster members, this node included (R78). -/
def Chip.memberCount (c : Chip) : Nat :=
  ((List.finRange 8).filter (fun n => c.isMember n)).length

/-- The slot capacity (R5, chapter 1.2). -/
def Settings.capacity (s : Settings) : Nat := if s.rate96 then 128 else 256

/-- J: ceil(P / D), 0 before a block length is configured (R116). -/
def jOf (delay blockLen : Nat) : Nat := if blockLen = 0 then 0 else ceilDiv delay blockLen

end Sys2Proof.Machine
end

