-- ==== Sys2Proof/Machine/Operands.lean ====
section
/-! DEFINITION. Operand forms: the argument words of an order (R184, R196), the code word of a cell (R196), the words of a tap
(R105, R106, R195), and the areas of the memory bus (R102). -/

namespace Sys2Proof.Machine

/-! ## Order arguments (R184) -/

/-- Argument word `k + 1` read as unsigned. -/
def argU (args : Vector Word 7) (k : Fin 7) : Nat := args[k].toNat

/-- Argument word `k + 1` read as signed. -/
def argS (args : Vector Word 7) (k : Fin 7) : Int := args[k].toInt

/-- A record index, if the table has it (R137). -/
def recordOf (n : Nat) : Option RecordId := if h : n < 128 then some ⟨n, h⟩ else none

/-- A preamp input that exists at this node (R157). -/
def Settings.inputOf (s : Settings) (n : Nat) : Option InputId :=
  if h : n < 64 then (if n < s.preampCount then some ⟨n, h⟩ else none) else none

/-- A slot code: a slot from 0 to 255, none (256), or no member of the set (R139, R184). -/
def slotOf (n : Nat) : Option (Option (Fin 256)) :=
  if h : n < 256 then some (some ⟨n, h⟩) else if n = 256 then some none else none

/-- The step argument of WANT: 63 is none, any other is clamped to 0 to 60 (R178). -/
def wantOf (n : Nat) : Option PreStep := if n = 63 then none else some (clampStep n)

/-- The code word of a cell: code in bits 7 to 0, bits 15 to 8 not examined, tag in bits 31 to 16 (R196). -/
def codeWord (tag : BitVec 16) (spare code : Byte) : Word := tag ++ spare ++ code

/-! ## Tap words (R105, R106, R195) -/

/-- The sample of a word written to a SEND tap (R106, R195). -/
def wordSample (j : Justification) (w : Word) : Sample :=
  match j with
  | .left => w.extractLsb' 8 24
  | .right => w.extractLsb' 0 24

/-- The key of a word written to a SEND tap; key up for RIGHT (R106, R195). -/
def wordKey (j : Justification) (w : Word) : Bool :=
  match j with
  | .left => w.getLsbD 0
  | .right => false

/-- The overload mark of a word written to a SEND tap; clear for RIGHT (R106, R195). -/
def wordOverload (j : Justification) (w : Word) : Bool :=
  match j with
  | .left => w.getLsbD 1
  | .right => false

/-- The low byte of a LEFT return word (R195). -/
def tagByte (t : OutTag) : Byte :=
  BitVec.ofBool false ++ BitVec.ofNat 3 t.origin.val ++ BitVec.ofBool t.loss ++ BitVec.ofBool t.valid
    ++ BitVec.ofBool t.overload ++ BitVec.ofBool t.key

/-- The word a return tap gives for an output (R106, R195). -/
def returnWord (j : Justification) (s : Sample) (t : OutTag) : Word :=
  match j with
  | .left => s ++ tagByte t
  | .right => s.signExtend 32

/-- A word of a tap: its half, frame and channel (R105). -/
structure TapPlace where
  half  : Fin 2
  frame : Fin 32
  chan  : Nat
deriving DecidableEq, Repr

/-- The half, frame and channel of word `addr` of a tap, when `addr` lies in the tap (R105). -/
def Tap.place (t : Tap) (d : Nat) (addr : Nat) : Option TapPlace :=
  let off := addr - t.base
  if t.base ≤ addr ∧ off < 2 * d * t.chans then
    some { half := Fin.ofNat 2 (off / (d * t.chans)), frame := Fin.ofNat 32 (off % (d * t.chans) / t.chans),
           chan := off % t.chans }
  else none

/-! ## Areas of the bus (R102) -/

/-- The five areas of R102. -/
inductive Area where
  | report (word : Nat)
  | code (cell : CellId)
  | argument (cell : CellId) (word : Fin 7)
  | sendTap (tap : Nat) (place : TapPlace)
  | returnTap (tap : Nat) (place : TapPlace)
  | plain
deriving DecidableEq, Repr

/-- The first word of the control window (R102, R122). -/
def Chip.windowBase (c : Chip) : Nat := c.sys.strapBase.val * 262144

/-- The first tap of a list that has a word at `addr`, with its number (R103, R105). -/
def tapAt (d addr : Nat) : Nat → List Tap → Option (Nat × Tap × TapPlace)
  | _, [] => none
  | k, t :: rest =>
    match t.place d addr with
    | some pl => some (k, t, pl)
    | none => tapAt d addr (k + 1) rest

/-- The area of a word address (R102). The control window stands in every mode; a tap is active in RUN only. -/
def Chip.area (c : Chip) (addr : Nat) : Area :=
  let off := addr - c.windowBase
  if c.windowBase ≤ addr ∧ off < 512 then .report off
  else if c.windowBase ≤ addr ∧ off < 544 then
    let cell : CellId := Fin.ofNat 4 ((off - 512) / 8)
    let w := (off - 512) % 8
    if w = 0 then .code cell else .argument cell (Fin.ofNat 7 (w - 1))
  else if c.sys.mode = .run then
    match tapAt c.cfg.blockLen addr 0 c.tap.taps with
    | none => .plain
    | some (k, t, pl) =>
      match t.kind with
      | .send => .sendTap k pl
      | .ret => .returnTap k pl
  else .plain

end Sys2Proof.Machine
end

