-- ==== Sys2Proof/Machine/Flags.lean ====
section
/-! DEFINITION. Marks and levels derived from the state: transmitter lit, unsynchronised mark, ring state, ATTN, character
parity, pull-in. -/

namespace Sys2Proof.Machine

/-- A transmitter sends light: in RUN, its own port not in QUARANTINE, its transmit mode not SILENT (R27). -/
def Chip.lit (c : Chip) (p : Port) : Bool :=
  c.sys.mode = .run && (c.rng.port.get p).rx ≠ .quarantine && (c.rng.port.get p).txMode ≠ .silent

/-- The unsynchronised mark of the bursts this node builds (R56). -/
def Cadence.unsync (c : Cadence) : Bool :=
  c.role = .follower && (c.state = .free || c.state = .locking)

/-- The cadence report of the bursts this node builds (R2, R56). -/
def Chip.cadenceReport (c : Chip) : CadenceReport :=
  { state := c.cad.state, role := c.cad.role, ref := c.cad.ref, rank := c.cfg.rank, unsync := c.cad.unsync }

/-- The port report of the bursts this node builds (R2, R26). -/
def Chip.portReport (c : Chip) : PortReport :=
  ⟨c.rng.port.east.rx, c.rng.port.west.rx⟩

/-- Within pull-in: −8 to +8 age units (chapter 3.3). -/
def withinPullIn (err : Int) : Bool := -8 ≤ err && err ≤ 8

/-- One age unit, or less if the error is smaller, in the direction that brings the error toward 0 (R45): the next tick moves
later for a positive error. -/
def slewOf (err : Int) : Int := err.sign

/-- The Cadence Unit counts silence: not for a timing node with the INTERNAL source, which has no reference events (R44). -/
def Chip.countsSilence (c : Chip) : Bool :=
  !(c.cad.role = .timing && c.cfg.source = .internal)

/-- The ring state that the roster and the lap monitor give (R78). -/
def Chip.ringOf (c : Chip) : RingState :=
  if c.memberCount = 1 then .alone
  else if c.sel.lap.east.silence < 96 ∧ c.sel.lap.west.silence < 96 then .closed
  else .open

/-- The level of the ATTN output (R188). -/
def Chip.attn (c : Chip) : Bool :=
  match c.sys.mode with
  | .loading => false
  | .halted => true
  | .run => c.ord.events.any (fun e => c.ord.attention.getLsbD (eventCode e.kind))

/-- The number of ones of an eight-bit value. -/
def ones (b : Byte) : Nat :=
  ((List.range 8).filter (fun k => b.getLsbD k)).length

/-- A received character is good when its parity is even and its stop bit is at the rest level (R161). -/
def goodCharacter (data : Byte) (parity stop : Bool) : Bool :=
  (ones data + (if parity then 1 else 0)) % 2 == 0 && stop

/-- A character as the part sends it (R161): the parity bit makes the number of ones among data and parity even, and the stop
bit is at rest. -/
def Character.sent (b : Byte) : Character := { data := b, parity := ones b % 2 == 1, stop := true }

/-- The eleven bits of a character in the order of the line (R161): the start bit away from rest, the data bits from the least
significant up, the parity bit, the stop bit; true is a one, or the rest level. -/
def Character.frame (x : Character) : List Bool :=
  [false] ++ (List.range 8).map x.data.getLsbD ++ [x.parity, x.stop]

/-- The P advice of the maximum ages held (R71). -/
def Selector.adviceOf (s : Selector) (self : NodeId) : Nat :=
  let ages := ((List.finRange 8).filter (fun n => n ≠ self)).flatMap
    (fun n => [s.paths[n].east.maxAge, s.paths[n].west.maxAge])
  match ages.filterMap id with
  | [] => 2
  | a :: rest => (clampInt 2 16 (-(-(rest.foldl max a + 32) / 64))).toNat

end Sys2Proof.Machine
end

