-- ==== Sys2Proof/Machine/Ports.lean ====
section
/-! DEFINITION. Ring ports: receive states, error windows, quarantine, drills, transmit queues (R21 to R33). -/

namespace Sys2Proof.Machine

/-- One port's state. -/
def Chip.portOf (c : Chip) (p : Port) : PortState := c.rng.port.get p

/-- Change one port's state. -/
def Chip.onPort (p : Port) (f : PortState → PortState) (c : Chip) : Chip :=
  { c with rng := { c.rng with port := c.rng.port.upd p f } }

/-- Post PORT STATE with the new receive state (R26). -/
def Chip.postPortState (p : Port) (c : Chip) : Chip :=
  c.post .portState (portCode p) (wordOf (rxCode (c.portOf p).rx))

/-! ## Transmit queues (R27, R28) -/

/-- Hand a burst to a lit transmitter (R27): appended, or discarded and counted when 16 are held. The burst that is leaving
keeps its place among the 16 until it has left, which R27 does not say (DESIGN CHOICE, log entry 48). A burst handed to an idle
transmitter starts to leave at the hand-over itself, in the transmit mode of that moment; R27 and R29 do not say when it starts (DESIGN
CHOICE, log entry 66). -/
def PortState.enqueue (e : TxEntry) (s : PortState) : PortState :=
  if s.queue.length < 16 then
    { s with queue := s.queue ++ [e], leaving := if s.leaving.isNone then some s.txMode else s.leaving }
  else { s with nDropped := s.nDropped + 1 }

/-- Hand a burst to a port's transmitter; a dark one discards it without counting (R27). -/
def Chip.handOver (p : Port) (e : TxEntry) (c : Chip) : Chip :=
  if c.lit p then c.onPort p (·.enqueue e) else c

/-- The transmitter goes dark with its port's quarantine: its queue is emptied (R25, R27). -/
def PortState.dark (s : PortState) : PortState := { s with queue := [], leaving := none }

/-- The transmitter goes dark by a SILENT drill: the queue is emptied, but for a burst already leaving, which is finished in the
mode it started in (R27, R29). -/
def PortState.silence (s : PortState) : PortState :=
  { s with queue := if s.leaving.isSome then s.queue.take 1 else [] }

/-- The check word a burst leaves with in a transmit mode (R28). -/
def sentCheck (m : TxMode) (b : Burst) : Word :=
  match m with
  | .corrupt => ~~~ checkWord b
  | _ => checkWord b

/-- BURST_SENT (R27, R28, R33): the head of the queue has left, in the mode in which it started to leave; the next burst starts
at once, in the present mode (DESIGN CHOICE, log entry 66). -/
def PortState.burstSent (s : PortState) : PortState :=
  match s.queue, s.leaving with
  | e :: rest, some m =>
    { s with
      queue := rest
      leaving := if rest.isEmpty then none else some s.txMode
      sent := some { burst := e.burst, check := sentCheck m e.burst }
      nForwarded := if e.forwarded then s.nForwarded + 1 else s.nForwarded }
  | _, _ => s

/-! ## Light (R22) -/

/-- The port enters ACQUIRE: good run 0, acquire timer 4,800 (R22, R25). -/
def PortState.enterAcquire (s : PortState) : PortState :=
  { s with rx := .acquire, goodRun := 0, acquireTimer := some 4800 }

/-- LIGHT_ARRIVAL (R22). -/
def Chip.lightArrival (p : Port) (c : Chip) : Chip :=
  let c1 := c.onPort p (fun s => { s with light := true })
  if c.sys.mode = .run ∧ (c.portOf p).rx = .dark then (c1.onPort p (·.enterAcquire)).postPortState p else c1

/-- LIGHT_LOSS (R22). From UP the good run stays as it is, for which R22 gives no value (DESIGN CHOICE, log entry 55). -/
def Chip.lightLoss (p : Port) (c : Chip) : Chip :=
  let c1 := c.onPort p (fun s => { s with light := false })
  if c.sys.mode = .run then
    match (c.portOf p).rx with
    | .acquire => (c1.onPort p (fun s => { s with rx := .dark, acquireTimer := none, goodRun := 0 })).postPortState p
    | .up => (c1.onPort p (fun s => { s with rx := .dark, windowTicks := 0, windowBad := 0 })).postPortState p
    | _ => c1
  else c1

/-! ## Bursts that only qualify or discredit a link (R23, R24) -/

/-- A burst in ACQUIRE (R23). A sixteenth good burst that comes after the tick that brought the acquire timer to 0 and before
ACQUIRE_FAILED is taken as if it came first (DESIGN CHOICE, log entry 61). The good run stays at 16 on entry to UP, for which R23 gives
no value (DESIGN CHOICE, log entry 55). -/
def Chip.acquireBurst (p : Port) (good : Bool) (c : Chip) : Chip :=
  if good then
    let c1 := c.onPort p (fun s => { s with goodRun := s.goodRun + 1, nGood := s.nGood + 1 })
    if 16 ≤ (c1.portOf p).goodRun then
      (c1.onPort p (fun s => { s with rx := .up, acquireTimer := none, windowTicks := 0, windowBad := 0 })).postPortState p
    else c1
  else c.onPort p (fun s => { s with goodRun := 0, nBad := s.nBad + 1 })

/-- A bad-check burst in UP (R24); the window count is held at 65,535 (R21). One that arrives after the tick that ends a window and
before its WINDOW_END counts in the window that ends (DESIGN CHOICE, log entry 54). -/
def Chip.badBurst (p : Port) (c : Chip) : Chip :=
  c.onPort p (fun s => { s with windowBad := min 65535 (s.windowBad + 1), nBad := s.nBad + 1 })

/-! ## Ticks and expiries (R23 to R25, R30) -/

/-- What a tick counts in a port (R23, R24, R25, R30). -/
def PortState.count (s : PortState) : PortState :=
  { s with
    acquireTimer := if s.rx = .acquire then s.acquireTimer.map (· - 1) else s.acquireTimer
    windowTicks := if s.rx = .up then min 48 (s.windowTicks + 1) else s.windowTicks
    quarTimer := if s.rx = .quarantine then s.quarTimer.map (· - 1) else s.quarTimer
    drill := s.drill - 1 }

/-- The acquire timer has reached 0 in ACQUIRE (R23). -/
def PortState.acquireDue (s : PortState) : Bool := s.rx = .acquire && s.acquireTimer = some 0

/-- The window periods have reached 48 in UP (R24). -/
def PortState.windowDue (s : PortState) : Bool := s.rx = .up && s.windowTicks = 48

/-- The quarantine timer has reached 0 in QUARANTINE (R25). -/
def PortState.quarantineDue (s : PortState) : Bool := s.rx = .quarantine && s.quarTimer = some 0

/-- Drill remaining has reached 0 with a drill's transmit mode still in effect (R30). -/
def PortState.drillDue (s : PortState) : Bool := s.drill = 0 && s.txMode ≠ .normal

/-- Entry to QUARANTINE (R25). Window periods, window bad count and good run keep their values, which R24 and R25 do not say (DESIGN
CHOICE, log entry 55). -/
def PortState.enterQuarantine (s : PortState) : PortState :=
  { s.dark with rx := .quarantine, acquireTimer := none, quarTimer := some 4800, nQuarantine := s.nQuarantine + 1 }

/-- ACQUIRE_FAILED (R23, R26): the acquire timer has reached 0. -/
def Chip.acquireFailed (p : Port) (c : Chip) : Chip :=
  let s := c.portOf p
  if s.acquireDue then
    (c.onPort p (·.enterQuarantine)).post .acquireFailed (portCode p) (wordOf s.goodRun)
  else c

/-- WINDOW_END (R24, R26): the window periods have reached 48. -/
def Chip.windowEnd (p : Port) (c : Chip) : Chip :=
  let s := c.portOf p
  if s.windowDue then
    if 8 ≤ s.windowBad then (c.onPort p (·.enterQuarantine)).post .quarantine (portCode p) (wordOf s.windowBad)
    else c.onPort p (fun s => { s with windowTicks := 0, windowBad := 0 })
  else c

/-- QUARANTINE_END (R25): the quarantine timer has reached 0, and the next state follows the light. -/
def Chip.quarantineEnd (p : Port) (c : Chip) : Chip :=
  let s := c.portOf p
  if s.quarantineDue then
    let c1 := c.onPort p (fun s => { s with quarTimer := none })
    (if s.light then c1.onPort p (·.enterAcquire) else c1.onPort p (fun s => { s with rx := .dark })).postPortState p
  else c

/-- DRILL_END (R30): drill remaining has reached 0. -/
def Chip.drillEnd (p : Port) (c : Chip) : Chip :=
  if (c.portOf p).drillDue then c.onPort p (fun s => { s with txMode := .normal }) else c

end Sys2Proof.Machine
end

