-- ==== Sys2Proof/Machine/Plans.lean ====
section
/-! DEFINITION. The slot plan, the plan beacon, assembly, adoption, mismatch, and the plan effects of a cadence step (R5 to
R20). -/

namespace Sys2Proof.Machine

/-! ## Plans (R5, R6) -/

/-- An allotment holds slot `s` (R5). -/
def Allotment.holds (a : Allotment) (s : Nat) : Bool := a.first ≤ s && s < a.first + a.count

/-- Two allotments share a slot. -/
def Allotment.meets (a b : Allotment) : Bool := a.first < b.first + b.count && b.first < a.first + a.count

/-- The own-slot total of node `n` over a list of allotments (R6). -/
def ownTotal (as : List Allotment) (n : NodeId) : Nat :=
  ((as.filter (fun a => a.owner = n)).map (·.count)).sum

/-- The total of allotted slots. -/
def allotTotal (as : List Allotment) : Nat := (as.map (·.count)).sum

/-- No two of the allotments share a slot (R5). -/
def apart : List Allotment → Bool
  | [] => true
  | a :: rest => rest.all (fun b => !a.meets b) && apart rest

/-- The conditions of R5 on the allotments of a plan. -/
def allotsOk (capacity : Nat) (as : List Allotment) : Bool :=
  as.length ≤ 16 && as.all (fun a => 1 ≤ a.count && a.first + a.count ≤ capacity) && apart as
    && (List.finRange 8).all (fun n => ownTotal as n ≤ 96)

/-- The conditions of R5 on a plan; version 0 goes with no allotment. -/
def Plan.ok (capacity : Nat) (p : Plan) : Bool :=
  allotsOk capacity p.allots && (p.version != 0 || p.allots.isEmpty)

/-- Insert an allotment in ascending order of first slot. -/
def insertAllot (a : Allotment) : List Allotment → List Allotment
  | [] => [a]
  | b :: rest => if a.first ≤ b.first then a :: b :: rest else b :: insertAllot a rest

/-- Allotments sorted by first slot (R5). -/
def sortAllots : List Allotment → List Allotment
  | [] => []
  | a :: rest => insertAllot a (sortAllots rest)

/-- The allotment that holds slot `s`, if any (R124). -/
def Plan.holder (p : Plan) (s : Nat) : Option Allotment := p.allots.find? (fun a => a.holds s)

/-- The own position of slot `s` at node `n`: the number of `n`'s slots below it (R6). -/
def Plan.position (p : Plan) (n : NodeId) (s : Nat) : Nat :=
  ((p.allots.filter (fun a => a.owner = n)).map (fun a => min a.count (s - a.first))).sum

/-- The kinds of a node's own positions, in ascending slot number (R6). -/
def Plan.ownKinds (p : Plan) (n : NodeId) : List SlotKind :=
  (p.allots.filter (fun a => a.owner = n)).flatMap (fun a => List.replicate a.count a.kind)

/-- The own-slot total of node `n` under a plan (R6). -/
def Plan.total (p : Plan) (n : NodeId) : Nat := ownTotal p.allots n

/-- Node `n` owns at least one allotment of the plan (R65). -/
def Plan.owns (p : Plan) (n : NodeId) : Bool := p.allots.any (fun a => a.owner = n)

/-- The allotments of a draft, in entry order (R8). -/
def draftAllots (d : Vector (Option Allotment) 16) : List Allotment := d.toList.filterMap id

/-- The successor of a version (R7). -/
def succVersion (v : Version) : Version := if v = 65535 then 1 else v + 1

/-! ## The plan in force (R8, R17) -/

/-- The staged plan or pending repair whose effective period has come at a tick that has not yet been answered by its
adoption (R17). -/
def PlanStore.due (s : PlanStore) (now : Period) : Option (Plan × Period) :=
  match s.staged with
  | some st => if atOrBefore st.effective now then some (st.plan, st.effective) else none
  | none =>
    match s.repair with
    | some r => if atOrBefore r.effective now then some (r.plan, r.effective) else none
    | none => none

/-- The plan in force for period `n` by the current and prior plans held (R8). -/
def PlanStore.held (s : PlanStore) (n : Period) : Plan :=
  match s.prior with
  | none => s.current
  | some p => if atOrAfter n s.adopted then s.current else p

/-- The plan in force for period `n` (R8). Adoption is defined by the period for which the plan is in force (R17), so from the
tick of its effective period a staged plan or repair is read as in force for that period and later ones, and the plan that it
replaces for every earlier period: an older plan is no longer held. -/
def PlanStore.inForce (s : PlanStore) (now n : Period) : Plan :=
  match s.due now with
  | some (p, e) => if atOrAfter n e then p else s.current
  | none => s.held n

/-- The current plan at period `now`: the plan whose adoption has come but has not been commanded yet is current already (R17). -/
def PlanStore.latest (s : PlanStore) (now : Period) : Plan :=
  match s.due now with
  | some (p, _) => p
  | none => s.current

/-- The plan in force for period `n` at this node. -/
def Chip.planAt (c : Chip) (n : Period) : Plan := c.pln.inForce c.cad.period n

/-- An announcement runs (R11): a staged plan announced here is held and its E has not come. -/
def PlanStore.announcing (s : PlanStore) (now : Period) : Bool :=
  match s.staged with
  | some st => st.announced && !atOrBefore st.effective now
  | none => false

/-! ## The beacon (R12, R13) -/

/-- A plan word (R199): first slot in bits 7 to 0, count in 16 to 8, kind in 19 to 18, owner in 22 to 20, bit 31 set. An empty
entry is 0. -/
def planWord : Option Allotment → Word
  | none => 0
  | some a => BitVec.ofNat 32 (a.first % 256 + (a.count % 512) * 256 + kindCode a.kind * 262144
      + a.owner.val * 1048576 + 2147483648)

/-- The entry that a plan word carries (R199). -/
def wordPlan (w : Word) : Option Allotment :=
  if w.getLsbD 31 then
    (kindOfCode (w.extractLsb' 18 2).toNat).map (fun k =>
      { owner := Fin.ofNat 8 (w.extractLsb' 20 3).toNat, first := (w.extractLsb' 0 8).toNat,
        count := (w.extractLsb' 8 9).toNat, kind := k })
  else none

/-- Byte `k` (0 to 71) of a plan's beacon: entries 0 to 15 of four bytes each, most significant byte first (DESIGN CHOICE, log
entry 11), then eight bytes of zero (R12). -/
def beaconByte (as : List Allotment) (k : Nat) : Byte :=
  if k < 64 then lane (planWord as[k / 4]?) (3 - k % 4) else 0

/-- The body of fragment `f` of a plan (R12). -/
def fragmentBody (p : Plan) (f : Fin 6) : Vector Byte 12 :=
  Vector.ofFn (fun k => beaconByte p.allots (12 * f.val + k.val))

/-- The next fragment number, from 5 back to 0 (R13). -/
def nextFragment (f : Fin 6) : Fin 6 := f + 1

/-- The fragment the Plan Store supplies at the authority, and the store with that fragment number advanced (R13). -/
def PlanStore.supply (s : PlanStore) (now : Period) : Fragment × PlanStore :=
  if s.announcing now then
    match s.staged with
    | some st =>
      ({ kind := .staged st.e, version := st.plan.version, number := s.nextStaged,
         body := fragmentBody st.plan s.nextStaged },
       { s with nextStaged := nextFragment s.nextStaged })
    | none => ({ kind := .current, version := 0, number := 0, body := Vector.replicate 12 0 }, s)
  else
    let p := s.latest now
    ({ kind := .current, version := p.version, number := s.nextCurrent, body := fragmentBody p s.nextCurrent },
     { s with nextCurrent := nextFragment s.nextCurrent })

/-- The 72 bytes of an assembly (R12). -/
def Assembly.byteAt (a : Assembly) (k : Nat) : Byte :=
  (a.bodies[k / 12]?.bind (fun b => b[k % 12]?)).getD 0

/-- Entry `i` of an assembled plan. -/
def Assembly.entry (a : Assembly) (i : Nat) : Option Allotment :=
  wordPlan (a.byteAt (4 * i) ++ a.byteAt (4 * i + 1) ++ a.byteAt (4 * i + 2) ++ a.byteAt (4 * i + 3))

/-- The plan of a complete assembly, its allotments sorted by first slot (R5, R12). -/
def Assembly.plan (a : Assembly) : Plan :=
  { version := a.version, allots := sortAllots ((List.range 16).filterMap a.entry) }

/-- All six marks are set (R14). -/
def Assembly.complete (a : Assembly) : Bool := a.marks.toList.all id

/-- Store a fragment in the assembly of its kind, restarting it where the version or the E differs (R14). -/
def storeFragment (a : Option Assembly) (version : Version) (e : Period) (f : Fragment) : Assembly :=
  let fresh : Assembly :=
    { version := version, e := e, marks := Vector.replicate 6 false,
      bodies := Vector.replicate 6 (Vector.replicate 12 0) }
  let base : Assembly :=
    match a with
    | some a => if a.version = version ∧ a.e = e then a else fresh
    | none => fresh
  { base with marks := base.marks.set f.number true, bodies := base.bodies.set f.number f.body }

/-- A complete staged assembly (R15). -/
def PlanStore.completeStaged (s : PlanStore) (capacity : Nat) (now : Period) (a : Assembly) : PlanStore :=
  let s := { s with asmStaged := none }
  if a.plan.ok capacity then
    let eff := if later a.e now then a.e else now + 1
    { s with staged := some { plan := a.plan, e := a.e, effective := eff, announced := false }, repair := none }
  else s

/-- A complete current assembly (R16). -/
def PlanStore.completeCurrent (s : PlanStore) (capacity : Nat) (now : Period) (a : Assembly) : PlanStore :=
  let s := { s with asmCurrent := none }
  if a.plan.ok capacity && a.version != s.current.version && s.staged.isNone then
    { s with repair := some { plan := a.plan, effective := now + 1 } }
  else s

/-- The staged assembly whose end has come is emptied (R18). -/
def PlanStore.expire (s : PlanStore) : PlanStore :=
  if s.expiryDue then { s with asmStaged := none, expiryDue := false } else s

/-- At the tick of period `now`, the end of a staged assembly for E falls due when `now` is E + 96 (R18). -/
def PlanStore.markExpiry (now : Period) (s : PlanStore) : PlanStore :=
  { s with expiryDue := s.asmStaged.any (fun a => a.e + 96 = now) }

/-- Take a STAGED fragment (R14, R15). An assembly whose end came at the tick before is emptied first (R18). -/
def PlanStore.takeStaged (s : PlanStore) (capacity : Nat) (now e : Period) (f : Fragment) : PlanStore :=
  let s := s.expire
  let adoptedAlready := f.version == s.current.version && !later e now
  let held := match s.staged with
    | some st => f.version == st.plan.version && e == st.e
    | none => false
  if adoptedAlready || held then s
  else
    let a := storeFragment s.asmStaged f.version e f
    if a.complete then s.completeStaged capacity now a else { s with asmStaged := some a }

/-- Take a CURRENT fragment (R14, R16). -/
def PlanStore.takeCurrent (s : PlanStore) (capacity : Nat) (now : Period) (f : Fragment) : PlanStore :=
  if f.version = s.current.version then s
  else
    let a := storeFragment s.asmCurrent f.version 0 f
    if a.complete then s.completeCurrent capacity now a else { s with asmCurrent := some a }

/-! ## Adoption (R17) and the end of an assembly (R18) -/

/-- Make plan `p` current for period `n` (R17, steps 1 and 2). -/
def PlanStore.adopt (s : PlanStore) (p : Plan) (n : Period) : PlanStore :=
  { s with current := p, adopted := n, prior := some s.current }

/-- ADOPTION (R17): the staged plan or pending repair whose effective period has come becomes current. -/
def Chip.adopt (c : Chip) : Chip :=
  match c.pln.staged with
  | some st =>
    if atOrBefore st.effective c.cad.period then
      let old := c.pln.current.version
      let c1 : Chip := { c with pln := { c.pln.adopt st.plan st.effective with staged := none } }
      let c2 := c1.post .planAdopted st.plan.version.toNat (wordOf old.toNat)
      if st.announced then c2.doneWaiting .adoption (wordOf st.plan.version.toNat) else c2
    else c
  | none =>
    match c.pln.repair with
    | some r =>
      if atOrBefore r.effective c.cad.period then
        let old := c.pln.current.version
        let c1 : Chip := { c with pln := { c.pln.adopt r.plan r.effective with repair := none } }
        c1.post .planAdopted r.plan.version.toNat (wordOf old.toNat)
      else c
    | none => c

/-- ASSEMBLY_EXPIRY (R18): at the tick of E + 96 an incomplete staged assembly for E is emptied. -/
def Chip.expireAssembly (c : Chip) : Chip := { c with pln := c.pln.expire }

/-! ## Taking a fragment (R14) -/

/-- A fragment at the Plan Store (R14): the assembly of its kind takes it. -/
def PlanStore.takeFragment (s : PlanStore) (capacity : Nat) (now : Period) (f : Fragment) : PlanStore :=
  match f.kind with
  | .staged e => s.takeStaged capacity now e f
  | .current => s.takeCurrent capacity now f

/-- Take a plan fragment of a copy (R14): at a node other than the authority, from the authority, not unsynchronised. An adoption
that fell due at the tick before is taken first (R17; log entry 4), so that the fragment meets the plans that stand after it. -/
def Chip.takeFragment (b : Burst) (c : Chip) : Chip :=
  if c.self = c.cfg.authority ∨ b.origin ≠ c.cfg.authority ∨ b.cadence.unsync then c
  else
    match b.aux with
    | .fragment f =>
      let c1 := c.adopt
      { c1 with pln := c1.pln.takeFragment c1.cfg.capacity c1.cad.period f }
    | _ => c

/-! ## Mismatch (R19) -/

/-- A copy disagrees with the plan in force for its period (R19). -/
def Chip.disagrees (c : Chip) (b : Burst) : Bool :=
  let p := c.planAt b.period
  b.version != p.version || b.slots.length != p.total b.origin

/-- Compare a copy with the plan in force for its period (R19); `outside` says the copy is out of window. -/
def Chip.checkMismatch (b : Burst) (outside : Bool) (c : Chip) : Chip :=
  if b.cadence.unsync || outside then c
  else if c.disagrees b && quiet96 c.pln.mismatch[b.origin] c.cad.period then
    let c' : Chip := { c with pln := { c.pln with mismatch := c.pln.mismatch.set b.origin (some c.cad.period) } }
    c'.post .planMismatch b.origin.val (wordOf b.version.toNat)
  else c

/-! ## A cadence step (R20) -/

/-- E lies more than 48,000 periods after the present period (R20). -/
def farAhead (e now : Period) : Bool := later e now && 48000 < (e - now).toNat

/-- The plan effects of a step to period `n` (R20). A pending repair waits for the next tick, and the step tick is that tick
(R41), so its effective period becomes `n` (DEDUCED, log entry 12). The E that R20 tests is taken to be the staged plan's: a
staged assembly goes with a staged plan that lies too far ahead, and stays, whatever its own E, with one that does not or where
no plan is staged (DESIGN CHOICE, log entry 46). The ORDER DONE of an announcement that fails comes after the step's CADENCE STATE
(DESIGN CHOICE, log entry 59). -/
def Chip.planStep (n : Period) (c : Chip) : Chip :=
  let repair := c.pln.repair.map (fun r => { r with effective := n })
  let s := PlanStore.markExpiry n { c.pln with prior := none, mismatch := Vector.replicate 8 none, repair := repair }
  match s.staged with
  | none => { c with pln := s }
  | some st =>
    if farAhead st.e n then
      let c1 : Chip := { c with pln := { s with staged := none, asmStaged := none, expiryDue := false } }
      if st.announced then c1.failWaiting .adoption .inProgress else c1
    else
      let eff := if later st.e n then st.e else n + 1
      { c with pln := { s with staged := some { st with effective := eff } } }

end Sys2Proof.Machine
end

