-- ==== Sys2Proof/Machine/Gain.lean ====
section
/-! DEFINITION. The return gain arithmetic of one record: the gain table, compensation, targets, ramps, output sample and
output tag (R123 to R136). -/

namespace Sys2Proof

/-- The key a slot carries; up unless it is a TALK slot with its key down (R4). Key up for a slot whose kind field is not that of a TALK
slot, as an own position has that was filed under one plan and is presented under another: R66 gives key up for lacking positions
alone (DESIGN CHOICE, log entry 67). -/
def Slot.keyDown (s : Slot) : Bool :=
  match s.field with
  | .key d => d
  | _ => false

/-- The preamp step a slot carries; UNKNOWN where it carries none (R4), as for a slot whose kind field is not that of a MIC slot (DESIGN
CHOICE, log entry 67). -/
def Slot.micStep (s : Slot) : Option PreStep :=
  match s.field with
  | .step st => st
  | _ => none

end Sys2Proof

namespace Sys2Proof.Machine

/-! ## The gain table and the multiplier (R127) -/

/-- The gain table T (R127). -/
def gainTable : List Nat :=
  [1048576, 1110928, 1176987, 1246974, 1321123, 1399681, 1482910, 1571089, 1664511, 1763488, 1868350, 1979448]

/-- M(g) (R127): T[g mod 12] × 2^floor(g/12), or divided and rounded to nearest with a tie upward for a negative exponent. -/
def gainM (g : Int) : Nat :=
  let t := gainTable.getD (g.emod 12).toNat 0
  let e := g.ediv 12
  if 0 ≤ e then t * 2 ^ e.toNat
  else
    let d := 2 ^ (-e).toNat
    (t + d / 2) / d

/-- Unity: multipliers have 20 fraction bits (R1). -/
def unity : Nat := 1048576

/-! ## Compensation (R128) -/

/-- The compensation gain before the clamp (R128). -/
def compRaw (kind : Option SlotKind) (want aLast : Option PreStep) : Int :=
  match kind, want, aLast with
  | some .mic, some w, some a => 2 * ((w.val : Int) - a.val)
  | _, _, _ => 0

/-- The compensation gain (R128). -/
def compGain (raw : Int) : Int := clampInt (-48) 48 raw

/-- The compensated sample, not saturated (R128). -/
def compensate (s : Sample) (g : Int) : Int := roundDiv (s.toInt * gainM g) unity

/-! ## Targets (R129, R130) -/

/-- The main target of a PRESENT record (R129). -/
def presentTarget (trim duck : Int) (engaged : Bool) : Nat :=
  gainM (clampInt (-144) 48 (trim + if engaged then duck else 0))

/-! ## Ramps (R131 to R133, R140) -/

/-- The distance from a multiplier to a target. -/
def distance (a b : Nat) : Nat := (a - b) + (b - a)

/-- Re-plan a ramp toward a new target over `l` evaluations (R131, R132). -/
def Ramp.replan (target l : Nat) (r : Ramp) : Ramp :=
  { r with target := target, length := l, step := max 1 (ceilDiv (distance target r.value) l) }

/-- Advance a ramp by one evaluation (R133). -/
def Ramp.advance (r : Ramp) : Ramp :=
  { r with value :=
      if r.value ≤ r.target then min r.target (r.value + r.step) else max r.target (r.value - r.step) }

/-- Restart a ramp: the multiplier and the target become 0 (R140). -/
def Ramp.restart (r : Ramp) : Ramp := { r with value := 0, target := 0 }

/-- The length of a main ramp re-plan (R131). -/
def mainLength (new old fadeOut fadeIn attack release : Nat) (was now : Bool) : Nat :=
  if new = 0 then fadeOut
  else if old = 0 then fadeIn
  else if !was && now then attack
  else if was && !now then release
  else 32

/-- The length of a talk ramp re-plan (R132). -/
def talkLength (new old attack release : Nat) : Nat :=
  if new = 0 then release else if old = 0 then attack else 32

/-! ## The input of a record (R124, R126) -/

/-- What a presentation holds of a record's slot (R67, R126): its owner and kind where the plan allots it, and the slot where
the owner is present. -/
structure SlotView where
  owner : NodeId
  kind  : SlotKind
  slot  : Option Slot
deriving DecidableEq, Repr

/-- A record after the owner and kind are read: a change restarts C and makes A_last none (R124). -/
def Record.readOwner (view : Option SlotView) (x : Record) : Record :=
  let now := view.map (fun v => (v.owner, v.kind))
  let x1 := { x with kind := now.map (·.2), last := now }
  if now = x.last then x1 else { x1 with main := x1.main.restart, aLast := none }

/-- A record after its input is taken (R126). -/
def Record.takeInput (view : Option SlotView) (x : Record) : Record :=
  match view.bind (fun v => v.slot.map (fun s => (v.kind, s))) with
  | some (k, s) =>
    let a := match k, s.micStep with
      | .mic, some st => some st
      | _, _ => x.aLast
    { x with present := true, heldSample := s.sample, aLast := a }
  | none => { x with present := false }

/-- The output tag (R135). -/
def outTag (view : Option SlotView) (bound : Bool) : OutTag :=
  match view with
  | some ⟨o, k, some s⟩ =>
    { valid := s.valid, key := k = .talk && s.keyDown, overload := s.overload, loss := false, origin := o }
  | some ⟨o, _, none⟩ => { valid := false, key := false, overload := false, loss := bound, origin := o }
  | none => { valid := false, key := false, overload := false, loss := bound, origin := 0 }

/-! ## Talk results of a record (R130, R150, R151) -/

/-- A talk entry holds the duck: HOLDING with hold remaining above 0 (R147, R151). -/
def TalkEntry.holds (e : TalkEntry) : Bool := e.state = .holding && e.hold ≠ some 0

/-- The entries that a talk mask names. -/
def masked (mask : BitVec 4) (talk : Vector TalkEntry 4) : List TalkEntry :=
  ((List.finRange 4).filter (fun i => mask.getLsbD i.val)).map (fun i => talk[i])

/-- A KEYED entry stands in the mask (R151). -/
def anyKeyed (mask : BitVec 4) (talk : Vector TalkEntry 4) : Bool := (masked mask talk).any (fun e => e.state = .keyed)

/-- The duck engagement that the talk entries give (R151). -/
def engagement (mask : BitVec 4) (talk : Vector TalkEntry 4) : Bool :=
  (masked mask talk).any (fun e => e.state = .keyed || e.holds)

/-- The talk input t: the saturating sum of the KEYED entries' samples (R150). -/
def talkInput (mask : BitVec 4) (talk : Vector TalkEntry 4) : Sample :=
  sat24 (((masked mask talk).filter (fun e => e.state = .keyed)).map (fun e => e.sample.toInt)).sum

/-- The talk target (R130, R151). -/
def talkTarget (mask : BitVec 4) (level : Int) (talk : Vector TalkEntry 4) : Nat :=
  if anyKeyed mask talk then gainM level else 0

/-! ## One record's evaluation (R125) -/

/-- The main target of a record at an evaluation (R129). -/
def Record.mainTarget (x : Record) (engaged : Bool) : Nat :=
  if x.binding.isSome && x.present then presentTarget x.trim x.duck engaged else 0

/-- MUTE while missing: C and the main ramp's target become 0 at once (R129). -/
def Record.muteIfMissing (x : Record) : Record :=
  if x.binding.isSome && !x.present && x.policy = .mute then { x with main := x.main.restart } else x

/-- The main ramp after its re-plan and advance; the duck engagement is kept for the next evaluation (R131, R133). -/
def Record.runMain (attack release : Nat) (engaged : Bool) (x : Record) : Record :=
  let target := x.mainTarget engaged
  let l := mainLength target x.main.target x.fadeOut x.fadeIn attack release x.ducked engaged
  let r := if target = x.main.target then x.main else x.main.replan target l
  { x with main := r.advance, ducked := engaged }

/-- The talk ramp after its re-plan and advance (R132, R133). -/
def Record.runTalk (attack release : Nat) (target : Nat) (x : Record) : Record :=
  let l := talkLength target x.talkRamp.target attack release
  let r := if target = x.talkRamp.target then x.talkRamp else x.talkRamp.replan target l
  { x with talkRamp := r.advance }

/-- The output sample (R134). -/
def outSample (comp : Int) (c : Nat) (t : Sample) (ct : Nat) : Sample :=
  sat24 (roundDiv (comp * c + t.toInt * ct) unity)

/-- Stages 2 to 5 of the evaluation of one record (R125): the record afterwards and its receive bank entry (R136). -/
def Record.evaluate (attack release : Nat) (talk : Vector TalkEntry 4) (view : Option SlotView) (x : Record) :
    Record × BankEntry :=
  let x1 := (x.readOwner view).takeInput view
  let raw := compRaw x1.kind x1.want x1.aLast
  let x2 := { x1 with limited := compGain raw ≠ raw }
  let engaged := engagement x2.mask talk
  let x3 := (x2.muteIfMissing.runMain attack release engaged).runTalk attack release (talkTarget x2.mask x2.level talk)
  let comp := compensate x3.heldSample (compGain raw)
  let out := outSample comp x3.main.value (talkInput x3.mask talk) x3.talkRamp.value
  let entry :=
    if x3.present = false ∧ x3.binding.isSome = true ∧ x3.policy = .pass then BankEntry.pass
    else BankEntry.output out (outTag view x3.binding.isSome)
  (x3, entry)

/-! ## Talk entries (R146, R147) -/

/-- HOLD_END (R147): a HOLDING entry whose hold remaining has reached 0 becomes QUIET. R147 does not say what hold remaining shows
then; the model stops it, as at the other ways to QUIET (DESIGN CHOICE, log entry 60). -/
def TalkEntry.holdEnd (e : TalkEntry) : TalkEntry :=
  if e.state = .holding ∧ e.hold = some 0 then { e with state := .quiet, hold := none } else e

/-- The state change of a talk entry from its source: `none` missing, otherwise the key (R147). -/
def TalkEntry.change (h : Nat) (source : Option Bool) (e : TalkEntry) : TalkEntry :=
  match source, e.state with
  | none, _ => { e with state := .quiet, hold := none }
  | some true, _ => { e with state := .keyed, hold := none }
  | some false, .quiet => e
  | some false, .keyed =>
    if h = 0 then { e with state := .quiet, hold := none } else { e with state := .holding, hold := some h }
  | some false, .holding => { e with hold := e.hold.map (· - 1) }

/-- A talk entry at stage 1 of an evaluation (R146, R147): the source is read, a change of owner makes it QUIET, and its state
changes. `view` is what the presentation holds of its slot. Where the slot is held as another kind than TALK the last owner becomes none,
and so it does where that slot's owner is missing besides, for which R146 gives both none and the owner held (DESIGN CHOICE, log
entry 64). -/
def TalkEntry.update (h : Nat) (view : Option SlotView) (e : TalkEntry) : TalkEntry :=
  let e0 := e.holdEnd
  match view with
  | some ⟨o, .talk, some s⟩ =>
    let e1 : TalkEntry :=
      if e0.owner.isSome ∧ e0.owner ≠ some o then { e0 with state := .quiet, hold := none } else e0
    { e1.change h (some s.keyDown) with owner := some o, sample := s.sample }
  | some ⟨_, .talk, none⟩ => e0.change h none
  | _ => { e0.change h none with owner := none }

end Sys2Proof.Machine
end

