-- ==== Sys2Proof/Machine/Cadence.lean ====
section
/-! DEFINITION. The Cadence Unit but for the cadence step: events, election, reference loss, holdover, the word clock, settled
ages, RELOCK (R39 to R59). -/

namespace Sys2Proof.Machine

/-- Change the Cadence Unit. -/
def Chip.onCad (f : Cadence → Cadence) (c : Chip) : Chip := { c with cad := f c.cad }

/-- Enter a cadence state; every change posts CADENCE STATE (R59). -/
def Chip.setCadence (st : CadenceState) (c : Chip) : Chip :=
  if c.cad.state = st then c
  else
    let c1 := c.onCad (fun x => { x with state := st })
    c1.post .cadenceState (cadenceCode st) (wordOf (nodeCode c1.cad.ref))

/-- Slew the next tick for a reference event within pull-in; the silence count returns to 0 (R45). -/
def Cadence.slew (err : Int) (x : Cadence) : Cadence :=
  { x with tickMove := x.tickMove + slewOf err, silence := 0 }

/-! ## Election (R46 to R50) -/

/-- Node `n` is a candidate (R46): this node when election is open to self, a peer when it is a member; rank below 15. -/
def Chip.candidateRank (c : Chip) (n : NodeId) : Option (Fin 16) :=
  let open' := if n = c.self then c.cad.openToSelf else c.sel.origins[n].member
  match c.cad.rank[n] with
  | some r => if open' && r.val < 15 then some r else none
  | none => none

/-- The better of two candidates: the lower pair of rank and id (R46); the first argument holds the lower ids. -/
def better (a : Option (Fin 16 × NodeId)) (b : Option (Fin 16 × NodeId)) : Option (Fin 16 × NodeId) :=
  match a, b with
  | none, b => b
  | a, none => a
  | some (r, n), some (r', n') => if r'.val < r.val then some (r', n') else some (r, n)

/-- The node the election gives (R46). -/
def Chip.elected (c : Chip) : Option NodeId :=
  ((List.finRange 8).foldl (fun best n => better best ((c.candidateRank n).map (fun r => (r, n)))) none).map (·.2)

/-- What every change of reference clears: path ages, lock count, and the copies judged against the former reference. -/
def Cadence.forget (x : Cadence) : Cadence :=
  { x with pathAge := ⟨none, none⟩, lockCount := 0, refLog := [], wckReturn := false }

/-- The election gives this node itself (R47). -/
def Chip.electSelf (c : Chip) : Chip :=
  let former := c.cad.state
  let c1 := c.onCad (fun x => { x.forget with role := .timing, ref := some c.self, decisionOpen := false })
  match c.cfg.source with
  | .internal => (c1.onCad (fun x => { x with holdover := none, silence := 0 })).setCadence .locked
  | .wck =>
    if former = .free ∨ former = .locking then c1.onCad (fun x => { x with stepArmed := true })
    else c1.onCad (fun x => { x with wckReturn := true })

/-- The election gives another node (R48). -/
def Chip.electOther (r : NodeId) (c : Chip) : Chip :=
  let former := c.cad.state
  let c1 := c.onCad (fun x => { x.forget with role := .follower, ref := some r, pathAge := x.settled[r] })
  match former with
  | .free => c1
  | .locking => c1.setCadence .free
  | _ => c1.onCad (fun x => { x with decisionOpen := true })

/-- The election gives no candidate (R50). -/
def Chip.electNone (c : Chip) : Chip :=
  (c.onCad (fun x =>
    { x.forget with role := .follower, ref := none, holdover := none, decisionOpen := false, stepArmed := false })).setCadence
    .free

/-- Hold the election anew (R46). -/
def Chip.elect (c : Chip) : Chip :=
  let w := c.elected
  if w = c.cad.ref then c
  else
    let c1 := c.post .timingChange (nodeCode w) (wordOf (nodeCode c.cad.ref))
    match w with
    | none => c1.electNone
    | some n => if n = c.self then c1.electSelf else c1.electOther n

/-- JOIN_QUIET_END (R31, R46): the join quiet count has reached 192; election opens to this node. A copy that comes between that tick
and this step meets an election not yet open (DESIGN CHOICE, log entry 61). -/
def Chip.joinQuietEnd (c : Chip) : Chip :=
  if c.rng.joinQuiet = 192 ∧ c.cad.openToSelf = false then
    (c.onCad (fun x => { x with openToSelf := true })).elect
  else c

/-! ## Loss of reference and holdover (R45, R51, R53, R54) -/

/-- What a tick counts in the Cadence Unit (R45, R53): the silence, held at 24, and the holdover timer. -/
def Chip.countCadence (c : Chip) : Chip :=
  c.onCad (fun x =>
    { x with
      silence := if c.countsSilence then min 24 (x.silence + 1) else x.silence
      holdover := x.holdover.map (· - 1) })

/-- The silence count has reached 24 in LOCKED or LOCKING (R45). -/
def Chip.lossDue (c : Chip) : Bool :=
  c.cad.silence = 24 && c.countsSilence && (c.cad.state = .locked || c.cad.state = .locking)

/-- The holdover timer has reached 0 in HOLDOVER or STEP_PENDING (R53, R54). -/
def Chip.holdoverDue (c : Chip) : Bool :=
  c.cad.holdover = some 0 && (c.cad.state = .holdover || c.cad.state = .stepPending)

/-- REFERENCE_LOST (R45, R51, R53, R54): the silence count has reached 24 in LOCKED or LOCKING. -/
def Chip.referenceLost (c : Chip) : Chip :=
  if c.cad.silence = 24 ∧ c.countsSilence = true then
    match c.cad.state with
    | .locked => (c.onCad (fun x => { x with holdover := some c.cfg.holdover })).setCadence .holdover
    | .locking =>
      (c.onCad (fun x =>
        { x with lockCount := 0, stepArmed := if x.role = .timing then true else x.stepArmed })).setCadence .free
    | _ => c
  else c

/-- HOLDOVER_EXPIRY (R53, R54): the holdover timer has reached 0 in HOLDOVER or STEP_PENDING. A decision that is open stays open in
FREE until the step, which R49 to R54 do not say (DESIGN CHOICE, log entry 56). -/
def Chip.holdoverExpiry (c : Chip) : Chip :=
  if c.holdoverDue then
    (c.onCad (fun x => { x with holdover := none })).setCadence .free
  else c

/-- Return to LOCKED on a reference event within pull-in: the holdover timer stops and the event slews (R49, R53, R54). -/
def Chip.lockOn (err : Int) (c : Chip) : Chip :=
  (c.onCad (fun x => { x.slew err with holdover := none, decisionOpen := false })).setCadence .locked

/-- Enter STEP_PENDING and post STEP NEEDED (R49, R53, R54); the holdover timer is set where it is stopped. STEP NEEDED is posted before
CADENCE STATE, which no rule states (DESIGN CHOICE, log entry 59). -/
def Chip.needStep (value : Word) (c : Chip) : Chip :=
  let c1 := c.onCad (fun x =>
    { x with decisionOpen := false, holdover := some (x.holdover.getD c.cfg.holdover) })
  (c1.post .stepNeeded (nodeCode c1.cad.ref) value).setCadence .stepPending

/-- One more event in LOCKING (R51, R47): 48 in a row give LOCKED. -/
def Chip.lockStep (err : Int) (c : Chip) : Chip :=
  let c1 := c.onCad (fun x => { x.slew err with lockCount := min 48 (x.lockCount + 1) })
  if 48 ≤ c1.cad.lockCount then c1.setCadence .locked else c1

/-! ## The word clock (R44, R47, R54, R55) -/

/-- The tick is moved to a word-clock edge, keeping the numbering; the state becomes LOCKING with lock count 1 (R47, R55). The move is
made by the next tick and takes the place of a displacement ordered already in the same period, which R47 does not say (DESIGN CHOICE,
log entry 44). The silence count is 0 after it (DEDUCED, log entry 18). -/
def Chip.moveToEdge (phase : Int) (c : Chip) : Chip :=
  (c.onCad (fun x =>
    { x with tickMove := phase, lockCount := 1, stepArmed := false, holdover := none, silence := 0,
             wckReturn := false })).setCadence .locking

/-- A word-clock edge judged while no step is armed (R44, R45, R47, R54). The first edge after an election from LOCKED, HOLDOVER or
STEP_PENDING is judged as a return of WCK: outside pull-in it needs a step from any of the three (log entry 19). A move to an edge
outside pull-in in LOCKING takes the place of a displacement ordered already in the same period (DESIGN CHOICE, log entry 44). -/
def Chip.judgeEdge (phase : Int) (c : Chip) : Chip :=
  let within := withinPullIn phase
  let back := c.cad.wckReturn
  let c := c.onCad (fun x => { x with wckReturn := false })
  match c.cad.state with
  | .locking =>
    if within then c.lockStep phase else c.onCad (fun x => { x with tickMove := phase, lockCount := 1 })
  | .locked =>
    if within then c.onCad (·.slew phase) else if back then c.needStep (wordOfInt phase) else c
  | .stepPending => if within then c.lockOn phase else if back then c.needStep (wordOfInt phase) else c
  | _ => if within then c.lockOn phase else c.needStep (wordOfInt phase)

/-- WCK_EDGE (R44): only a timing node with the WCK source in RUN judges an edge. A loss of reference due at the tick before is
taken first (R45). -/
def Chip.wckEdge (phase : Int) (c : Chip) : Chip :=
  if c.sys.mode = .run ∧ c.cad.role = .timing ∧ c.cfg.source = .wck then
    let c := c.referenceLost
    if c.cad.stepArmed then c.moveToEdge phase else c.judgeEdge phase
  else c

/-! ## Reference copies (R42, R43, R49, R51, R53, R54) -/

/-- The phase error of a reference copy, or none where it is not judged (R42). -/
def Cadence.phaseError (x : Cadence) (p : Port) (age : Int) : Option Int :=
  match x.pathAge.get p, x.pathAge.get (otherPort p) with
  | some a, _ => some (age - a)
  | none, none => some age
  | none, some _ => none

/-- Learn the route of a copy (R43): where its port has no path age, or its phase error was outside pull-in, its age becomes its
port's path age. -/
def Cadence.learn (o : RefNote) (x : Cadence) : Cadence :=
  if (x.pathAge.get o.port).isNone || o.judged = .outside then { x with pathAge := x.pathAge.put o.port (some o.age) } else x

/-- Record a reference copy. Where its period's copy on the other port is held, each of the two whose fellow is within pull-in
teaches its own port's path age, whichever came first (R43). -/
def Cadence.noteCopy (p : Port) (n : Period) (age : Int) (j : Judgement) (x : Cadence) : Cadence :=
  let note : RefNote := { port := p, period := n, age := age, judged := j }
  let x1 := { x with refLog := note :: x.refLog }
  match x.refLog.find? (fun o => o.port = otherPort p && o.period = n) with
  | some o =>
    let x2 := if o.judged = .within then x1.learn note else x1
    if j = .within then x2.learn o else x2
  | none => x1

/-- A copy within pull-in of period `n` has been taken already: a second one is no further event (R42). -/
def Cadence.counted (x : Cadence) (n : Period) : Bool :=
  x.refLog.any (fun o => o.judged = .within && o.period = n)

/-- A new period begins (R40): the displacement ordered for its tick is used up (R45). A copy whose period number comes to lie half
the number range behind is forgotten, since that number names a period to come from then on (R1; log entry 23). -/
def Cadence.begin (n : Period) (x : Cadence) : Cadence :=
  { x with
    period := n
    tickMove := 0
    refLog := x.refLog.filter (fun o => (n - o.period).toNat ≠ 2147483648) }

/-- A judged reference copy of period `n` (R42, R49, R51, R53, R54). `again` says that the period's reference event has been taken: the
copy is no further event, so in STEP_PENDING, where an event alone decides (R54), it leaves the state as it is. In HOLDOVER, and
while the decision is open, the copy itself decides (R49, R53). A copy that comes after the tick that brought the holdover timer to 0
and before HOLDOVER_EXPIRY is taken as if it came first (DESIGN CHOICE, log entry 61). -/
def Chip.judgeCopy (err : Int) (n : Period) (again : Bool) (c : Chip) : Chip :=
  if withinPullIn err then
    match c.cad.state with
    | .locking => if again then c else c.lockStep err
    | .locked =>
      if again then c.onCad (fun x => { x with decisionOpen := false })
      else c.onCad (fun x => { x.slew err with decisionOpen := false })
    | .free => c
    | .holdover => c.lockOn err
    | .stepPending => if again && !c.cad.decisionOpen then c else c.lockOn err
  else
    match c.cad.state with
    | .locking => c.onCad (fun x => { x with lockCount := 0 })
    | .locked => if c.cad.decisionOpen then c.needStep (wordOf n.toNat) else c
    | .holdover => c.needStep (wordOf n.toNat)
    | .stepPending => if c.cad.decisionOpen then c.needStep (wordOf n.toNat) else c
    | .free => c

/-- A reference copy that is not stepped onto (R42, R43, R49, R51, R53, R54). -/
def Chip.referenceCopy (p : Port) (n : Period) (age : Int) (c : Chip) : Chip :=
  match c.cad.phaseError p age with
  | none => c.onCad (·.noteCopy p n age .unjudged)
  | some err =>
    let again := c.cad.counted n
    (c.judgeCopy err n again).onCad (·.noteCopy p n age (if withinPullIn err then .within else .outside))

/-- A reference copy steps the tick: from FREE, or when a step is armed in LOCKED, HOLDOVER or STEP_PENDING (R51, R55). -/
def Cadence.stepsOnCopy (x : Cadence) : Bool :=
  x.state = .free || (x.stepArmed && x.state ≠ .locking)

/-- Record the settled age of a copy's origin on its arriving port (R58). -/
def Chip.settleAge (p : Port) (age : Int) (b : Burst) (c : Chip) : Chip :=
  if c.cad.state = .locked ∧ b.cadence.unsync = false ∧ b.cadence.state = .locked ∧ b.cadence.ref = c.cad.ref then
    c.onCad (fun x => { x with settled := upd x.settled b.origin (fun v => v.put p (some age)) })
  else c

/-- Record the rank of a copy's origin; a change holds the election anew (R46). -/
def Chip.noteRank (o : NodeId) (r : Fin 16) (c : Chip) : Chip :=
  if c.cad.rank[o] = some r then c
  else (c.onCad (fun x => { x with rank := x.rank.set o (some r) })).elect

/-- The Cadence Unit's teardown for a leaving origin: rank entry and settled ages none, then a new election (R75). -/
def Chip.cadenceTeardown (d : NodeId) (c : Chip) : Chip :=
  (c.onCad (fun x =>
    { x with rank := x.rank.set d none, settled := x.settled.set d ⟨none, none⟩ })).elect

/-- RELOCK arms a step where there is something to step (R55): the unit afterwards and the value. -/
def Chip.arm (c : Chip) : Chip × Nat :=
  let st := c.cad.state
  let can :=
    if c.cad.role = .follower then
      c.cad.ref.isSome && (st = .locked || st = .holdover || st = .stepPending)
    else
      c.cfg.source = .wck && (st = .stepPending || st = .holdover || st = .free)
  if can then (c.onCad (fun x => { x with stepArmed := true }), 1) else (c, 0)

end Sys2Proof.Machine
end

