-- ==== Sys2Proof/Machine/Preamp.lean ====
section
/-! DEFINITION. The Preamp Unit: the preamp queue, the start-up sweep, the preamp port, the settle, and the claims it holds
(R157 to R171). -/

namespace Sys2Proof.Machine

/-- Change one preamp input. -/
def PreampUnit.onInput (i : InputId) (f : PreInput → PreInput) (u : PreampUnit) : PreampUnit :=
  { u with inputs := upd u.inputs i f }

/-- An entry for the input stands in the queue. -/
def PreampUnit.queued (u : PreampUnit) (i : InputId) : Bool := u.queue.any (fun e => e.input = i)

/-- Put an entry into the queue: in the place of the input's entry, or at the end (R159). -/
def enqueueRequest (e : PreRequest) (q : List PreRequest) : List PreRequest :=
  if q.any (fun x => x.input = e.input) then q.map (fun x => if x.input = e.input then e else x) else q ++ [e]

/-- Make a step request (R159): the unit afterwards, and whether the request was admitted. -/
def PreampUnit.request (u : PreampUnit) (i : InputId) (step : Nat) (who : Requester) : PreampUnit × Bool :=
  if u.queued i = true ∨ u.queue.length < 8 then
    let u1 := { u with queue := enqueueRequest { input := i, step := clampStep step, who := who } u.queue }
    (u1.onInput i (fun x => { x with requester := some who, sweep := false }), true)
  else (u, false)

/-- The lowest-numbered existing input whose sweep mark is set (R160). -/
def PreampUnit.firstMarked (u : PreampUnit) : Option InputId :=
  (List.finRange 64).find? (fun i => u.inputs[i].sweep)

/-- One admission of the sweep: the lowest marked input with its initial step, while the queue holds fewer than 4 (R160). -/
def PreampUnit.sweepOne (initial : Vector PreStep 64) (u : PreampUnit) : PreampUnit :=
  if u.queue.length < 4 then
    match u.firstMarked with
    | some i => (u.request i initial[i].val .loc).1
    | none => u
  else u

/-- The sweep tops the queue up to 4 (R160): from an empty queue that takes at most four admissions. -/
def PreampUnit.sweepUp (initial : Vector PreStep 64) (u : PreampUnit) : PreampUnit :=
  let one := PreampUnit.sweepOne initial
  one (one (one (one u)))

/-- At entry to RUN the sweep mark of every existing input is set (R160). -/
def PreampUnit.markAll (count : Nat) (u : PreampUnit) : PreampUnit :=
  { u with inputs := u.inputs.mapIdx (fun i x => { x with sweep := i < count }) }

/-! ## The preamp port (R161 to R164) -/

/-- The address and step characters of a command, each with its even parity (R161). -/
def commandChars (i : InputId) (s : PreStep) : List Character :=
  [Character.sent (BitVec.ofNat 8 (128 + i.val)), Character.sent (BitVec.ofNat 8 s.val)]

/-- The oldest queue entry whose input is not SETTLING (R162). -/
def PreampUnit.nextEntry (u : PreampUnit) : Option PreRequest :=
  u.queue.find? (fun e => u.inputs[e.input].state ≠ .settling)

/-- TRANSACTION_START (R162): with the port IDLE, the oldest entry of a non-settling input is removed and its characters are
sent; the sweep then tops the queue up (R160). The answer timer is 0 until AWAITING sets it, for which R162 gives no value (DESIGN
CHOICE, log entry 65). -/
def PreampUnit.start (initial : Vector PreStep 64) (u : PreampUnit) : PreampUnit :=
  if u.port = .idle then
    match u.nextEntry with
    | some e =>
      let u1 : PreampUnit :=
        { u with
          queue := u.queue.eraseP (fun x => x.input = e.input)
          trans := some { input := e.input, step := e.step, attempt := 1, timer := 0 }
          port := .sending
          line := commandChars e.input e.step }
      u1.sweepUp initial
    | none => u
  else u

/-- STEP_CHARACTER_SENT (R162, R164): the port awaits the answer with the timer at 8; from RETRY with attempt 2. -/
def PreampUnit.charSent (u : PreampUnit) : PreampUnit :=
  match u.port, u.trans with
  | .sending, some t => { u with port := .awaiting, trans := some { t with timer := 8 } }
  | .retry, some t => { u with port := .awaiting, trans := some { t with attempt := 2, timer := 8 } }
  | _, _ => u

/-- The echo has been taken (R163): the effect period counts from the first tick after it. -/
def PreampUnit.succeed (t : Transaction) (effect : Period) (u : PreampUnit) : PreampUnit :=
  let u1 := u.onInput t.input (fun x =>
    { x with confirmed := some t.step, pending := some (t.step, effect), state := .settling })
  { u1 with trans := none, port := .idle }

/-- An attempt has failed (R164): attempt 1 is sent again; attempt 2 makes the input FAULTED and posts PREAMP FAULT. In RETRY the answer
timer keeps what was left of it, for which R164 gives no value (DESIGN CHOICE, log entry 65). -/
def Chip.attemptFailed (t : Transaction) (c : Chip) : Chip :=
  if t.attempt = 1 then { c with pre := { c.pre with port := .retry, line := commandChars t.input t.step } }
  else
    let u1 := c.pre.onInput t.input (fun x => { x with state := .faulted, confirmed := none, stamp := none })
    let c1 : Chip := { c with pre := { u1 with trans := none, port := .idle } }
    c1.post .preampFault t.input.val (wordOf t.step.val)

/-- CHARACTER_RECEIVED (R161, R163, R164): in AWAITING the character is the answer; in any other state it is discarded. One that comes
after the TICK that brought the answer timer to 0 and before ANSWER_TIMER_EXPIRY is taken as if it came first: an echo succeeds, and
its stamp takes effect the settle delay after the next tick (DESIGN CHOICE, log entry 61). -/
def Chip.characterReceived (data : Byte) (parity stop : Bool) (c : Chip) : Chip :=
  match c.pre.port, c.pre.trans with
  | .awaiting, some t =>
    if goodCharacter data parity stop && data.toNat == t.step.val then
      { c with pre := c.pre.succeed t (c.cad.period + 1 + BitVec.ofNat 32 c.cfg.settle) }
    else c.attemptFailed t
  | _, _ => c

/-- What a tick counts in the Preamp Unit (R162): the answer timer in AWAITING. -/
def PreampUnit.count (u : PreampUnit) : PreampUnit :=
  if u.port = .awaiting then { u with trans := u.trans.map (fun t => { t with timer := t.timer - 1 }) } else u

/-- The answer timer has reached 0 in AWAITING, and the failure has not been taken (R164). -/
def PreampUnit.answerDue (u : PreampUnit) : Bool := u.port = .awaiting && (u.trans.map (·.timer)) = some 0

/-- ANSWER_TIMER_EXPIRY (R164): the answer timer has reached 0. -/
def Chip.answerTimeout (c : Chip) : Chip :=
  match c.pre.port, c.pre.trans with
  | .awaiting, some t => if t.timer = 0 then c.attemptFailed t else c
  | _, _ => c

/-- SETTLE_END (R165): the effect period of the input's pending step has come. -/
def PreampUnit.settleEnd (now : Period) (i : InputId) (u : PreampUnit) : PreampUnit :=
  match u.inputs[i].pending with
  | some (s, e) =>
    if atOrBefore e now then u.onInput i (fun x => { x with stamp := some s, pending := none, state := .ready }) else u
  | none => u

/-- The step that the MIC slot of own position `p` carries for period `n` (R6, R158). -/
def Chip.stampFor (c : Chip) (p : Nat) (n : Period) : Option PreStep :=
  match c.cfg.inputOf p with
  | none => none
  | some i =>
    match c.pre.inputs[i].pending with
    | some (s, e) => if atOrBefore e n then some s else c.pre.inputs[i].stamp
    | none => c.pre.inputs[i].stamp

/-- A cadence step from present period `o` to period `n` carries every effect period across, so that the number of ticks that
remain is kept, the step itself being one tick (R41, R165; DEDUCED, log entry 13). -/
def PreampUnit.shift (o n : Period) (u : PreampUnit) : PreampUnit :=
  { u with inputs := u.inputs.map (fun x => { x with pending := x.pending.map (fun q => (q.1, q.2 + (n - (o + 1)))) }) }

/-! ## Claims at the stage (R167 to R169) -/

/-- The id of an input's claimant, or 255 where it is unclaimed (R168). -/
def claimantValue (d : Option NodeId) : Fin 256 :=
  match d with
  | some n => toValue n.val
  | none => toValue 255

/-- CLAIM from node `d` (R167). -/
def Chip.offerClaim (d : NodeId) (i : InputId) (c : Chip) : Chip × Verdict :=
  match c.cfg.inputOf i.val with
  | none => (c, .refused .noInput 0)
  | some _ =>
    match c.pre.inputs[i].claimant with
    | none =>
      ({ c with pre := c.pre.onInput i (fun x => { x with claimant := some d }) },
       .taken (toValue (stepCode c.pre.inputs[i].confirmed)))
    | some e =>
      if e = d then (c, .taken (toValue (stepCode c.pre.inputs[i].confirmed)))
      else (c, .refused .held (toValue e.val))

/-- RELEASE from node `d` (R168). -/
def Chip.offerRelease (d : NodeId) (i : InputId) (c : Chip) : Chip × Verdict :=
  match c.cfg.inputOf i.val with
  | none => (c, .refused .noInput 0)
  | some _ =>
    if c.pre.inputs[i].claimant = some d then
      ({ c with pre := c.pre.onInput i (fun x => { x with claimant := none }) }, .taken 0)
    else (c, .refused .notHolder (claimantValue c.pre.inputs[i].claimant))

/-- GAIN from node `d` (R169): judged by the claimant, then made a request; a full queue gives BUSY. -/
def Chip.offerGain (d : NodeId) (i : InputId) (step : Nat) (c : Chip) : Chip × Verdict :=
  match c.cfg.inputOf i.val with
  | none => (c, .refused .noInput 0)
  | some _ =>
    if c.pre.inputs[i].claimant = some d then
      match c.pre.request i step (.node d) with
      | (u, true) => ({ c with pre := u }, .taken (toValue (clampStep step).val))
      | (_, false) => (c, .busy)
    else (c, .refused .notHolder (claimantValue c.pre.inputs[i].claimant))

/-- Every claim that a leaving node holds is released (R75, R167). -/
def PreampUnit.releaseAll (d : NodeId) (u : PreampUnit) : PreampUnit :=
  { u with inputs := u.inputs.map (fun x => if x.claimant = some d then { x with claimant := none } else x) }

end Sys2Proof.Machine
end

