-- ==== Sys2Proof/Machine/Messages.lean ====
section
/-! DEFINITION. The Message Unit and the claim logic of the return records: entering, offering, answering and ending
messages, and the claim states that their outcomes change (R82 to R99, R172 to R178). -/

namespace Sys2Proof.Machine

/-- The outcome of a message (R97). -/
inductive MsgOutcome where
  | taken (value : Fin 256)
  | refused (reason : RefuseReason) (value : Fin 256)
  | unanswered
  | busy
  | outboxFull
deriving DecidableEq, Repr

/-- Change one return record. -/
def Chip.onRecord (r : RecordId) (f : Record → Record) (c : Chip) : Chip :=
  { c with ret := { c.ret with records := upd c.ret.records r f } }

/-- One return record. -/
def Chip.recordAt (c : Chip) (r : RecordId) : Record := c.ret.records[r]

/-- Post CLAIM LOST for a record and the input it held (R179, R197). -/
def Chip.postClaimLost (r : RecordId) (owner : NodeId) (i : InputId) (c : Chip) : Chip :=
  c.post .claimLost r.val (wordOf (owner.val * 256 + i.val))

/-! ## Handlers (R92) -/

/-- The state a claim takes when its record gives it up. -/
def ClaimState.claiming : ClaimState → Bool
  | .held => true
  | .asking => true
  | _ => false

/-- A record gives its claim up to a DROP (R176). -/
def Chip.dropRecord (s : NodeId) (i : InputId) (r : RecordId) (c : Chip) : Chip :=
  let x := c.recordAt r
  if x.slotInput = some (s, i) ∧ x.claim.claiming = true then
    let c1 := c.onRecord r (fun x => { x with claim := .none })
    if x.claim = .held then c1.postClaimLost r s i else c1
  else c

/-- The number of records that hold a claim on input `i` of node `s`. -/
def Chip.heldCount (c : Chip) (s : NodeId) (i : InputId) : Nat :=
  (c.ret.records.toList.filter (fun x => x.slotInput = some (s, i) ∧ x.claim = .held)).length

/-- DROP from node `s`, offered to the claim logic (R176): TAKEN with the number of records that left HELD. The records are taken in
ascending number (DESIGN CHOICE, log entry 51). -/
def Chip.offerDrop (s : NodeId) (i : InputId) (c : Chip) : Chip × Verdict :=
  (forEach 128 (fun r c => c.dropRecord s i r) c, .taken (toValue (c.heldCount s i)))

/-- Offer a message to its handler (R83, R92). -/
def Chip.offer (sender : NodeId) (body : MsgBody) (c : Chip) : Chip × Verdict :=
  match body with
  | .claim i => c.offerClaim sender i
  | .release i => c.offerRelease sender i
  | .gain i s => c.offerGain sender i s.val
  | .drop i => c.offerDrop sender i

/-! ## Entering a message (R85, R98) -/

/-- Replace the outbox. -/
def Chip.withOutbox (c : Chip) (o : List OutEntry) : Chip := { c with msg := { c.msg with outbox := o } }

/-- Enter a message (R85): handled locally when it is addressed to this node (R98). The second part is the outcome of a message
that ended at once, or none for one that the outbox holds. One to a peer that is no member ends UNANSWERED even while the outbox holds
16 entries; R85 gives these two cases no precedence (DESIGN CHOICE, log entry 62). -/
def Chip.enter (dest : NodeId) (body : MsgBody) (orig : Originator) (c : Chip) : Chip × Option MsgOutcome :=
  if dest = c.self then
    match c.offer dest body with
    | (c1, .taken v) => (c1, some (.taken v))
    | (c1, .refused r v) => (c1, some (.refused r v))
    | (c1, .busy) =>
      if c1.msg.outbox.length < 16 then
        (c1.withOutbox (c1.msg.outbox ++
          [{ dest := dest, body := body, busy := 1, state := .backoff, deadline := 48, orig := orig }]), none)
      else (c1, some .outboxFull)
  else if c.isMember dest = false then (c, some .unanswered)
  else if c.msg.outbox.length < 16 then
    (c.withOutbox (c.msg.outbox ++ [{ dest := dest, body := body, orig := orig }]), none)
  else (c, some .outboxFull)

/-! ## Outcomes (R97) -/

/-- The reason a cell takes from an outcome (R97, R196). -/
def MsgOutcome.reason : MsgOutcome → Reason
  | .taken _ => .none
  | .refused .held _ => .held
  | .refused .noInput _ => .noInput
  | .refused .notHolder _ => .notHolder
  | .unanswered => .unanswered
  | .busy => .busy
  | .outboxFull => .outboxFull

/-- UNANSWERED, BUSY and OUTBOX FULL are the outcomes that post MESSAGE FAILED (R97). -/
def MsgOutcome.failed : MsgOutcome → Bool
  | .taken _ => false
  | .refused _ _ => false
  | _ => true

/-- Post MESSAGE FAILED for a failing outcome (R97, R197). -/
def Chip.postFailed (dest : NodeId) (body : MsgBody) (o : MsgOutcome) (c : Chip) : Chip :=
  if o.failed then
    c.post .messageFailed dest.val
      (wordOf (msgCode body.kind * 65536 + body.input.val * 256 + reasonCode o.reason))
  else c

/-- Enter a message that has no originator: its outcome is used for MESSAGE FAILED alone (R97). -/
def Chip.enterQuiet (dest : NodeId) (body : MsgBody) (c : Chip) : Chip :=
  match c.enter dest body .nobody with
  | (c1, some o) => c1.postFailed dest body o
  | (c1, none) => c1

/-- A record of this node other than `r` is HELD or ASKING on the same owner and input (R176). -/
def Chip.shared (c : Chip) (r : RecordId) (owner : NodeId) (i : InputId) : Bool :=
  (List.finRange 128).any (fun q =>
    q ≠ r && c.ret.records[q].slotInput = some (owner, i) && c.ret.records[q].claim.claiming)

/-- A record of this node is HELD or ASKING on an owner and input (R176). -/
def Chip.inUse (c : Chip) (owner : NodeId) (i : InputId) : Bool :=
  (List.finRange 128).any (fun q => c.ret.records[q].slotInput = some (owner, i) && c.ret.records[q].claim.claiming)

/-- Send a RELEASE for an owner and input unless a record still uses the claim (R176). The record that gives a claim up has left
HELD already. -/
def Chip.sendRelease (owner : NodeId) (i : InputId) (c : Chip) : Chip :=
  if c.inUse owner i then c else c.enterQuiet owner (.release i)

/-- The outcome of a CLAIM reaches its record (R175). A stale TAKEN sends a RELEASE unless a record uses the claim, the record of
the outcome among them (R176). -/
def Chip.claimOutcome (r : RecordId) (dest : NodeId) (i : InputId) (o : MsgOutcome) (c : Chip) : Chip :=
  let x := c.recordAt r
  if x.claim = .asking ∧ x.slotInput = some (dest, i) then
    match o with
    | .taken _ => c.onRecord r (fun x => { x with claim := .held })
    | .refused _ _ => c.onRecord r (fun x => { x with claim := .denied })
    | _ => c.onRecord r (fun x => { x with claim := .none })
  else
    match o with
    | .taken _ => c.sendRelease dest i
    | _ => c

/-- A GAIN of a record was refused NOT HOLDER (R178): a record still HELD on that input becomes NONE. -/
def Chip.holderLost (r : RecordId) (dest : NodeId) (i : InputId) (c : Chip) : Chip :=
  let x := c.recordAt r
  if x.claim = .held ∧ x.slotInput = some (dest, i) then
    (c.onRecord r (fun x => { x with claim := .none })).postClaimLost r dest i
  else c

/-- Complete an order cell with the outcome of its message (R97). -/
def Chip.cellOutcome (i : CellId) (o : MsgOutcome) (c : Chip) : Chip :=
  match o with
  | .taken v => c.done i (wordOf v.val)
  | .refused _ v => c.fail i o.reason (wordOf v.val)
  | _ => c.failFree i o.reason

/-- Deliver a message's outcome to its originator (R97). The events of one outcome are posted in the order MESSAGE FAILED, CLAIM
LOST, ORDER DONE; R186 gives none (DESIGN CHOICE, log entry 51). -/
def Chip.deliver (dest : NodeId) (body : MsgBody) (orig : Originator) (o : MsgOutcome) (c : Chip) : Chip :=
  let c1 := c.postFailed dest body o
  match orig with
  | .nobody => c1
  | .record r => c1.claimOutcome r dest body.input o
  | .cell i r =>
    let c2 :=
      match body.kind, o with
      | .gain, .refused .notHolder _ => c1.holderLost r dest body.input
      | _, _ => c1
    c2.cellOutcome i o

/-- Enter a message and, where it ends at once, deliver its outcome; the second part says that the outbox holds it. -/
def Chip.send (dest : NodeId) (body : MsgBody) (orig : Originator) (c : Chip) : Chip × Bool :=
  match c.enter dest body orig with
  | (c1, some o) => (c1.deliver dest body orig o, false)
  | (c1, none) => (c1, true)

/-! ## Claims at the desk (R172 to R174, R176) -/

/-- Test R174 for a record and send its CLAIM; the second part says that one was sent. -/
def Chip.tryClaim (r : RecordId) (c : Chip) : Chip × Bool :=
  let x := c.recordAt r
  match x.slotInput with
  | some (owner, i) =>
    if x.seek = true ∧ (x.claim = .none ∨ x.claim = .denied) ∧ c.isMember owner = true then
      (((c.onRecord r (fun x => { x with claim := .asking })).send owner (.claim i) (.record r)).1, true)
    else (c, false)
  | none => (c, false)

/-- The owner of a record's slot input joins this node's roster (R74, R174). The records are taken in ascending number (DESIGN CHOICE,
log entry 51). -/
def Chip.claimsOnJoin (n : NodeId) (c : Chip) : Chip :=
  forEach 128 (fun r c =>
    match (c.recordAt r).slotInput with
    | some (owner, _) => if owner = n then (c.tryClaim r).1 else c
    | none => c) c

/-- The owner of a record's slot input leaves this node's roster (R176). The records are taken in ascending number (DESIGN CHOICE, log
entry 51). -/
def Chip.claimsOnLeave (n : NodeId) (c : Chip) : Chip :=
  forEach 128 (fun r c =>
    let x := c.recordAt r
    match x.slotInput with
    | some (owner, i) =>
      if owner = n then
        let c1 := c.onRecord r (fun x => { x with claim := .none })
        if x.claim = .held then c1.postClaimLost r owner i else c1
      else c
    | none => c) c

/-! ## Sending (R86 to R89, R96) -/

/-- An entry of the outbox to `d` is IN_FLIGHT or BACKOFF (R86). One whose third deadline has been reached holds its destination
until the end of its message is taken, before or after the burst of that tick (log entry 47). -/
def holdsDest (o : List OutEntry) (d : NodeId) : Bool := o.any (fun e => e.dest = d && e.state ≠ .waiting)

/-- An entry is ready to be sent (R86). A self-addressed entry is never sent (R98), and an entry whose third deadline has been
reached has ended (R89). -/
def OutEntry.ready (o : List OutEntry) (self : NodeId) (e : OutEntry) : Bool :=
  e.dest ≠ self &&
  match e.state with
  | .waiting => !holdsDest o e.dest
  | .inFlight => e.deadline = 0 && e.attempts < 3
  | .backoff => e.deadline = 0

/-- Split a list at the first element that passes a test. -/
def splitFirst {α : Type} (f : α → Bool) : List α → Option (List α × α × List α)
  | [] => none
  | x :: rest =>
    if f x then some ([], x, rest)
    else (splitFirst f rest).map (fun (a, y, b) => (x :: a, y, b))

/-- Send an entry (R88): it takes the send toggle if it has none, counts an attempt, becomes IN_FLIGHT with deadline 96. -/
def OutEntry.sendNow (toggle : Bool) (e : OutEntry) : OutEntry :=
  { e with toggle := some (e.toggle.getD toggle), attempts := e.attempts + 1, state := .inFlight, deadline := 96 }

/-- The oldest ready entry wins the aux field (R87, R88): the aux content and the unit with that entry sent. -/
def MessageUnit.takeReady (m : MessageUnit) (self : NodeId) : Option (Aux × MessageUnit) :=
  match splitFirst (OutEntry.ready m.outbox self) m.outbox with
  | some (a, e, b) =>
    let e' := e.sendNow m.toggle[e.dest]
    some (.message { dest := e.dest, toggle := e'.toggle.getD false, body := e.body },
          { m with outbox := a ++ e' :: b })
  | none => none

/-- What a tick counts in the outbox (R89, R96). -/
def MessageUnit.count (m : MessageUnit) : MessageUnit :=
  { m with outbox := m.outbox.map (fun e =>
      if e.state = .waiting then e else { e with deadline := e.deadline - 1 }) }

/-- The third deadline of an entry has been reached (R89). -/
def OutEntry.expired (e : OutEntry) : Bool := e.state = .inFlight && e.deadline = 0 && 3 ≤ e.attempts

/-- The backoff of a self-addressed entry has expired (R98). -/
def OutEntry.selfDue (self : NodeId) (e : OutEntry) : Bool := e.state = .backoff && e.deadline = 0 && e.dest = self

/-- The entry at place `k` of the outbox passes a test. -/
def MessageUnit.entryIs (m : MessageUnit) (k : Nat) (f : OutEntry → Bool) : Bool := m.outbox[k]?.any f

/-- DEADLINE_REACHED for the entry at place `k` (R89). With attempts 1 or 2 the entry stays IN_FLIGHT and is ready by R86,
which reads the deadline; with attempts 3 the message ends UNANSWERED. -/
def Chip.deadlineReached (k : Nat) (c : Chip) : Chip :=
  match c.msg.outbox[k]? with
  | some e =>
    if e.expired then
      (c.withOutbox (c.msg.outbox.eraseIdx k)).deliver e.dest e.body e.orig .unanswered
    else c
  | none => c

/-- BACKOFF_EXPIRED for the entry at place `k` (R96, R98). An entry to a peer is ready by R86, which reads the backoff; a
self-addressed entry is offered to the local handler again. -/
def Chip.backoffExpired (k : Nat) (c : Chip) : Chip :=
  match c.msg.outbox[k]? with
  | some e =>
    if e.selfDue c.self then
      match c.offer e.dest e.body with
      | (c1, .taken v) =>
        (c1.withOutbox (c1.msg.outbox.eraseIdx k)).deliver e.dest e.body e.orig (.taken v)
      | (c1, .refused r v) =>
        (c1.withOutbox (c1.msg.outbox.eraseIdx k)).deliver e.dest e.body e.orig (.refused r v)
      | (c1, .busy) =>
        if 8 ≤ e.busy + 1 then
          (c1.withOutbox (c1.msg.outbox.eraseIdx k)).deliver e.dest e.body e.orig .busy
        else c1.withOutbox (c1.msg.outbox.set k { e with busy := e.busy + 1, deadline := 48 })
    else c
  | none => c

/-! ## Receiving (R90, R91, R93) -/

/-- Queue an answer (R93): in the place of the peer's answer, or at the end. -/
def queueAnswer (a : Answer) (q : List Answer) : List Answer :=
  if q.any (fun x => x.target = a.target) then q.map (fun x => if x.target = a.target then a else x) else q ++ [a]

/-- Queue an answer for a burst of this node (R93). -/
def Chip.queueAnswer (a : Answer) (c : Chip) : Chip :=
  { c with msg := { c.msg with answers := Machine.queueAnswer a c.msg.answers } }

/-- A message received from peer `s` (R91). -/
def Chip.receive (s : NodeId) (m : Message) (c : Chip) : Chip :=
  let repeated := match c.msg.delivered[s] with
    | some a => if a.toggle = m.toggle then some a else none
    | none => none
  match repeated with
  | some a => c.queueAnswer a
  | none =>
    let (c1, v) := c.offer s m.body
    let a : Answer :=
      { target := s, toggle := m.toggle, echoKind := m.body.kind, echoInput := m.body.input, verdict := v }
    let c2 : Chip :=
      if v = .busy then c1 else { c1 with msg := { c1.msg with delivered := c1.msg.delivered.set s (some a) } }
    c2.queueAnswer a

/-! ## Answers at the sender (R94, R95) -/

/-- Flip the send toggle for a node. -/
def MessageUnit.flip (m : MessageUnit) (d : NodeId) : MessageUnit := { m with toggle := upd m.toggle d (!·) }

/-- Remove an entry whose message has ended, flipping the toggle, and deliver the outcome (R94). -/
def Chip.endAnswered (a b : List OutEntry) (e : OutEntry) (d : NodeId) (o : MsgOutcome) (c : Chip) : Chip :=
  let c1 : Chip := { c with msg := { c.msg.flip d with outbox := a ++ b } }
  c1.deliver e.dest e.body e.orig o

/-- A counted answer (R94). -/
def Chip.countAnswer (a b : List OutEntry) (e : OutEntry) (d : NodeId) (v : Verdict) (c : Chip) : Chip :=
  match v with
  | .taken x => c.endAnswered a b e d (.taken x)
  | .refused r x => c.endAnswered a b e d (.refused r x)
  | .busy =>
    if e.state = .backoff then c
    else if 8 ≤ e.busy + 1 then (c.withOutbox (a ++ b)).deliver e.dest e.body e.orig .busy
    else c.withOutbox (a ++ { e with busy := e.busy + 1, state := .backoff, deadline := 48, attempts := 0 } :: b)

/-- An answer of a foreign echo (R95): the entry is resynchronised once. -/
def Chip.resynchronise (a b : List OutEntry) (e : OutEntry) (d : NodeId) (c : Chip) : Chip :=
  if e.resynced then c
  else
    let m := c.msg.flip d
    let e' : OutEntry :=
      { e with toggle := some m.toggle[d], resynced := true, attempts := 0, state := .inFlight, deadline := 0 }
    { c with msg := { m with outbox := a ++ e' :: b } }

/-- An answer from peer `d` (R94, R95). One that comes after the tick that brought the deadline to its end and before DEADLINE_REACHED
is taken as if it came first (DESIGN CHOICE, log entry 61). -/
def Chip.takeAnswer (d : NodeId) (x : Answer) (c : Chip) : Chip :=
  match splitFirst (fun e => e.dest = d && e.state ≠ .waiting) c.msg.outbox with
  | some (a, e, b) =>
    if e.toggle = some x.toggle then
      if x.echoKind = e.body.kind ∧ x.echoInput = e.body.input then c.countAnswer a b e d x.verdict
      else c.resynchronise a b e d
    else c
  | none => c

/-- What the Message Unit takes of a copy (R90): the fields of the first copy of each burst. Where it carries both a message and
an answer for this node, either is taken first (R176; log entry 47). -/
def Chip.messageCopy (b : Burst) (c : Chip) : Chip :=
  if c.msg.lastTaken[b.origin] = some b.period then c
  else
    let c1 : Chip := { c with msg := { c.msg with lastTaken := c.msg.lastTaken.set b.origin (some b.period) } }
    match b.messageFor c.self, b.answerFor c.self with
    | some m, some x => c1.eitherOrder (·.receive b.origin m) (·.takeAnswer b.origin x)
    | some m, none => c1.receive b.origin m
    | none, some x => c1.takeAnswer b.origin x
    | none, none => c1

/-! ## Teardown (R99) -/

/-- The Message Unit's teardown for a leaving peer (R99). -/
def Chip.messageTeardown (d : NodeId) (c : Chip) : Chip :=
  let ended := c.msg.outbox.filter (fun e => e.dest = d)
  let m : MessageUnit :=
    { outbox := c.msg.outbox.filter (fun e => e.dest ≠ d)
      toggle := c.msg.toggle.set d false
      delivered := c.msg.delivered.set d none
      answers := c.msg.answers.filter (fun x => x.target ≠ d)
      lastTaken := c.msg.lastTaken.set d none }
  ended.foldl (fun c e => c.deliver e.dest e.body e.orig .unanswered) { c with msg := m }

end Sys2Proof.Machine
end

