-- ==== Sys2Proof/Machine/Roster.lean ====
section
/-! DEFINITION. The roster, the path records, the lap monitor and the classing and storing of copies (R37, R60 to R64, R74 to
R78). -/

namespace Sys2Proof.Machine

/-- Change the Burst Selector. -/
def Chip.onSel (f : Selector → Selector) (c : Chip) : Chip := { c with sel := f c.sel }

/-- Change one origin record. -/
def Selector.onOrigin (o : NodeId) (f : OriginRecord → OriginRecord) (s : Selector) : Selector :=
  { s with origins := upd s.origins o f }

/-- Change one path record. -/
def Selector.onPath (o : NodeId) (p : Port) (f : PathRecord → PathRecord) (s : Selector) : Selector :=
  { s with paths := upd s.paths o (fun v => v.upd p f) }

/-- Evaluate the ring state anew (R78); a change posts RING STATE with the number of members. -/
def Chip.evalRing (c : Chip) : Chip :=
  let r := c.ringOf
  if r = c.sel.ring then c
  else (c.onSel (fun s => { s with ring := r })).post .ringState (ringCode r) (wordOf c.memberCount)

/-! ## Leaving and joining (R74, R75) -/

/-- The Burst Selector's part of a leave (R75). -/
def Selector.leave (o : NodeId) (s : Selector) : Selector :=
  let s1 := s.onOrigin o (fun x => { x with member := false, outside := 0, cadence := none, ports := none })
  { s1 with
    epoch := s1.epoch + 1
    store := s1.store.set o (Vector.replicate 32 {})
    paths := s1.paths.set o ⟨{}, {}⟩ }

/-- A leave: one roster update with the teardown in every block (R75). The Message Unit tears down after the owners of the
claims, as R99 says of the outcomes it delivers. The blocks' events are posted in the order ROSTER LEAVE, TIMING CHANGE and CADENCE
STATE, CLAIM LOST, MESSAGE FAILED and the other outcomes, RING STATE; R186 lets either of two be first (DESIGN CHOICE, log
entry 59). -/
def Chip.leave (o : NodeId) (c : Chip) : Chip :=
  let serial := c.sel.origins[o].serial
  let c1 := (c.onSel (·.leave o)).post .rosterLeave o.val serial
  let c2 : Chip := { c1 with pln := { c1.pln with mismatch := c1.pln.mismatch.set o none } }
  let c3 := c2.cadenceTeardown o
  let c4 : Chip := { c3 with pre := c3.pre.releaseAll o }
  ((c4.claimsOnLeave o).messageTeardown o).evalRing

/-- A join (R74): the member, its serial and the epoch, then the blocks that act on joins. Their events are posted in the order ROSTER
JOIN, TIMING CHANGE and CADENCE STATE, RING STATE, and the claims' messages follow; R186 lets either of two be first (DESIGN CHOICE,
log entry 59). -/
def Chip.join (o : NodeId) (serial : Word) (rank : Fin 16) (c : Chip) : Chip :=
  let c1 := c.onSel (fun s =>
    { s.onOrigin o (fun x => { x with member := true, serial := serial }) with epoch := s.epoch + 1 })
  let c2 := c1.post .rosterJoin o.val serial
  let c3 := (c2.onCad (fun x => { x with rank := x.rank.set o (some rank) })).elect
  (c3.evalRing).claimsOnJoin o

/-- The roster silence of a member has reached 96 (R75). -/
def Chip.leaveDue (c : Chip) (o : NodeId) : Bool := o ≠ c.self && c.sel.origins[o].member && 96 ≤ c.sel.origins[o].silence

/-- ROSTER_LEAVE (R75): a member's roster silence has reached 96. -/
def Chip.rosterLeave (o : NodeId) (c : Chip) : Chip := if c.leaveDue o then c.leave o else c

/-- The roster update of a copy (R37, R62): silence 0, a join, or a leave and join at a change of serial. A copy that comes after the
tick that brought the silence to 96 and before ROSTER_LEAVE is taken as if it came first (DESIGN CHOICE, log entry 61). -/
def Chip.rosterCopy (b : Burst) (c : Chip) : Chip :=
  let o := b.origin
  let c1 := c.onSel (·.onOrigin o (fun x => { x with silence := 0 }))
  if c.sel.origins[o].member = false then c1.join o b.serial b.cadence.rank
  else if c.sel.origins[o].serial ≠ b.serial then (c1.leave o).join o b.serial b.cadence.rank
  else c1

/-! ## Taking a copy (R62, R63, R64) -/

/-- The three classes of a copy (R63). -/
inductive CopyClass where
  | late
  | outside
  | inside
deriving DecidableEq, Repr

/-- The class of a copy of period `n` and age `age` (R63). -/
def Selector.classOf (s : Selector) (n : Period) (age : Int) : CopyClass :=
  if earlier n s.next || (s.delay * 64 : Int) ≤ age then .late
  else if 32 ≤ (n - s.next).toNat then .outside
  else .inside

/-- The path record after a copy (R62, R63). -/
def PathRecord.copy (age : Int) (hop : Fin 8) (unsync : Bool) (k : CopyClass) (x : PathRecord) : PathRecord :=
  let top := match x.maxAge with
    | some m => max m age
    | none => age
  { x with
    lastAge := some age
    maxAge := if unsync || k = .outside then x.maxAge else some top
    copies := x.copies + 1
    late := if k = .late then x.late + 1 else x.late
    hop := some (hop.val + 1)
    silence := 0 }

/-- Store an in-window copy, unless its period is held already (R64). -/
def AlignEntry.store (b : Burst) (x : AlignEntry) : AlignEntry :=
  if x.state = .held ∧ x.period = b.period then x
  else { state := .held, period := b.period, slots := b.slots, version := b.version, unsync := b.cadence.unsync }

/-- What the Burst Selector takes of a copy after the roster update (R62 to R64). -/
def Selector.takeCopy (p : Port) (age : Int) (b : Burst) (k : CopyClass) (s : Selector) : Selector :=
  let o := b.origin
  let s1 := s.onOrigin o (fun x =>
    { x with
      cadence := some b.cadence
      ports := some b.ports
      outside := if k = .outside then x.outside + 1 else x.outside })
  let s2 := s1.onPath o p (·.copy age b.hop b.cadence.unsync k)
  if k = .inside then
    { s2 with store := upd s2.store o (fun row => upd row (mod32 b.period) (·.store b)) }
  else s2

/-! ## Silences (R75, R77, R78) -/

/-- What a tick counts in the Burst Selector (R75, R77, R78). -/
def Selector.count (s : Selector) : Selector :=
  { s with
    origins := s.origins.map (fun x => if x.member then { x with silence := min 96 (x.silence + 1) } else x)
    paths := s.paths.map (fun v => v.both (fun x => { x with silence := min 96 (x.silence + 1) }))
    lap := s.lap.both (fun x => { x with silence := min 96 (x.silence + 1) }) }

/-- PATH_SILENCE_END (R77): a path silence has reached 96, and the hop distance becomes none. -/
def Selector.pathSilenceEnd (o : NodeId) (p : Port) (s : Selector) : Selector :=
  if 96 ≤ (s.paths[o].get p).silence then s.onPath o p (fun x => { x with hop := none }) else s

/-- LAP_SILENCE_END (R78): a port's lap silence has reached 96, and the ring state is evaluated. -/
def Chip.lapSilenceEnd (p : Port) (c : Chip) : Chip :=
  if 96 ≤ (c.sel.lap.get p).silence then c.evalRing else c

/-- A lap return reaches the lap monitor (R35, R78). -/
def LapRecord.take (age : Int) (x : LapRecord) : LapRecord :=
  { silence := 0
    lastAge := some age
    maxAge := match x.maxAge with
      | some m => some (max m age)
      | none => some age }

/-- A lap return at a port in UP (R35, R78). One that comes after the tick that brought the lap silence to its end and before
LAP_SILENCE_END is taken as if it came first (DESIGN CHOICE, log entry 61). -/
def Chip.lapReturn (p : Port) (age : Int) (c : Chip) : Chip :=
  let c1 : Chip := { c with rng := { c.rng with port := c.rng.port.upd p (fun s => { s with nLap := s.nLap + 1 }) } }
  (c1.onSel (fun s => { s with lap := s.lap.upd p (·.take age) })).evalRing

/-- CLEARAGES (R72): every maximum age of the path records becomes none. -/
def Selector.clearAges (s : Selector) : Selector :=
  { s with paths := s.paths.map (fun v => v.both (fun x => { x with maxAge := none })) }

/-- The Burst Selector's part of a cadence step to period `n` (R73). The last lap age is taken to be among the last ages that R73 sets
to none, though R73 does not name it as it names the maximum lap age (DESIGN CHOICE, log entry 57). -/
def Selector.stepTo (n : Period) (s : Selector) : Selector :=
  { s with
    store := Vector.replicate 8 (Vector.replicate 32 {})
    next := n - BitVec.ofNat 32 s.delay
    deferred := false
    paths := s.paths.map (fun v => v.both (fun x => { x with lastAge := none, maxAge := none }))
    lap := s.lap.both (fun x => { x with lastAge := none, maxAge := none }) }

end Sys2Proof.Machine
end

