-- ==== Sys2Proof/Machine/Return.lean ====
section
/-! DEFINITION. Presentation, evaluation and return handover (R65 to R71, R115 to R118, R125, R136, R140 to R142, R173). -/

namespace Sys2Proof.Machine

/-- A presentation handed to the Return Processor (R67): the plan in force, and for each origin the slots of its presented copy,
or none where it is missing or owns nothing. -/
structure Presentation where
  period : Period
  plan   : Plan
  rows   : Vector (Option (List Slot)) 8
deriving DecidableEq, Repr

/-- What a presentation holds of a slot (R67). A lacking own position is not valid, sample 0, overload clear, key up, step
UNKNOWN (R66). A position that was filed with another kind field than the presented kind's keeps sample and marks, and its step reads
UNKNOWN and its key up (DESIGN CHOICE, log entry 67). -/
def Presentation.view (v : Presentation) (slot : Option (Fin 256)) : Option SlotView :=
  match slot with
  | none => none
  | some s =>
    match v.plan.holder s.val with
    | none => none
    | some a =>
      some { owner := a.owner, kind := a.kind,
             slot := v.rows[a.owner].map (fun l => l.getD (v.plan.position a.owner s.val) {}) }

/-- The number of the block that holds period `n` (R1). -/
def blockOf (d : Nat) (n : Period) : Nat := n.toNat / d

/-! ## The claim logic of an evaluation (R172 to R174) -/

/-- The slot input of a binding under a plan (R172). -/
def slotInputOf (p : Plan) (binding : Option (Fin 256)) : Option (NodeId × InputId) :=
  match binding with
  | none => none
  | some s =>
    match p.holder s.val with
    | some a =>
      let k := p.position a.owner s.val
      if h : a.kind = .mic ∧ k < 64 then some (a.owner, ⟨k, h.2⟩) else none
    | none => none

/-- A record leaves HELD by a change of its slot input or binding: RELEASE and CLAIM LOST (R173, R176). -/
def Chip.giveUp (r : RecordId) (c : Chip) : Chip :=
  let x := c.recordAt r
  let c1 := c.onRecord r (fun x => { x with claim := .none })
  match x.claim, x.slotInput with
  | .held, some (owner, i) => (c1.sendRelease owner i).postClaimLost r owner i
  | _, _ => c1

/-- The claim logic at one record of an evaluation (R173): the slot input is read and compared, then a claim that is due is
tried (R174). -/
def Chip.claimStep (p : Plan) (r : RecordId) (c : Chip) : Chip :=
  let x := c.recordAt r
  let now := slotInputOf p x.binding
  let c1 :=
    if now = x.slotInput then c
    else (c.giveUp r).onRecord r (fun x => { x with slotInput := now, claimDue := true })
  if (c1.recordAt r).claimDue then
    ((c1.onRecord r (fun x => { x with claimDue := false })).tryClaim r).1
  else c1

/-! ## The evaluation (R125) -/

/-- Stage 1 (R125, R146): the talk entries are brought up to date. -/
def Chip.talkStage (v : Presentation) (c : Chip) : Chip :=
  { c with ret := { c.ret with talk := c.ret.talk.map (fun e => e.update c.ret.hold (v.view e.binding)) } }

/-- Stages 2 to 5 (R125): every record is evaluated from its own fields and the talk entries, and frame n mod D of the bank of
block floor(n/D) is written (R115, R136). -/
def Chip.recordStage (v : Presentation) (c : Chip) : Chip :=
  let out := c.ret.records.map (fun x => x.evaluate c.ret.attack c.ret.release c.ret.talk (v.view x.binding))
  let frame := out.map (·.2)
  let b : Fin 8 := Fin.ofNat 8 (blockOf c.cfg.blockLen v.period)
  let f : Fin 32 := Fin.ofNat 32 (v.period.toNat % c.cfg.blockLen)
  { c with ret := { c.ret with records := out.map (·.1), banks := upd c.ret.banks b (fun bank => bank.set f frame) } }

/-- One evaluation (R125). The claim logic takes the records in ascending number, which fixes the order of the outbox entries and of
the CLAIM LOST events, and which records the sharing test of R176 finds; R125 and R173 give no order (DESIGN CHOICE, log entry 51). -/
def Chip.evaluate (v : Presentation) (c : Chip) : Chip :=
  (forEach 128 (fun r c => c.claimStep v.plan r) (c.talkStage v)).recordStage v

/-! ## Presentation (R65 to R68, R70) -/

/-- The slots of one origin at the presentation of `n` under plan `p`: present when its entry is HELD for `n` and acceptable
(R65). This node is always present (R66). A skipped period finds every peer missing (R70). -/
def Chip.rowFor (c : Chip) (skipped : Bool) (n : Period) (p : Plan) (o : NodeId) : Option (List Slot) :=
  let e := (c.sel.store[o])[mod32 n]
  let isHeld := e.state = .held && e.period = n
  if o = c.self then some (if isHeld then e.slots else [])
  else if !skipped && p.owns o && isHeld && e.version == p.version && e.slots.length == p.total o && !e.unsync
  then some e.slots
  else none

/-- The presentation of period `n` (R65, R67). -/
def Chip.presentation (c : Chip) (skipped : Bool) (n : Period) : Presentation :=
  let p := c.planAt n
  { period := n, plan := p, rows := Vector.ofFn (fun o => c.rowFor skipped n p o) }

/-- The presence of one peer origin at a presentation (R68). -/
def Chip.presence (v : Presentation) (o : NodeId) (c : Chip) : Chip :=
  let x := c.sel.origins[o]
  let put (f : OriginRecord → OriginRecord) : Chip := c.onSel (·.onOrigin o f)
  if o = c.self then c
  else if v.plan.owns o = false then put (fun x => { x with present := false })
  else if v.rows[o].isSome then
    if x.present then c
    else (put (fun x => { x with present := true })).post .returnRestored o.val (wordOf (min 65535 x.missing.toNat))
  else if x.present then
    (put (fun x => { x with present := false, missing := 1 })).post .returnLoss o.val v.period
  else put (fun x => { x with missing := x.missing + 1 })

/-- An entry that holds period `n` or an earlier one becomes PRESENTED (R65). -/
def AlignEntry.present (n : Period) (e : AlignEntry) : AlignEntry :=
  if e.state = .held ∧ atOrBefore e.period n = true then { e with state := .presented } else e

/-- In every row, entry n mod 32 becomes free for a later period (R65). -/
def Selector.freeEntries (n : Period) (s : Selector) : Selector :=
  { s with store := s.store.map (fun row => upd row (mod32 n) (·.present n)) }

/-- Present period `n`, the next period to present (R65); a skipped one changes no presence (R70). The origins' RETURN LOSS and
RETURN RESTORED are posted in ascending node id; R68 and R186 give no order (DESIGN CHOICE, log entry 51), and before the events of
the evaluation (DESIGN CHOICE, log entry 59). -/
def Chip.presentPeriod (skipped : Bool) (c : Chip) : Chip :=
  let n := c.sel.next
  let v := c.presentation skipped n
  let c1 := if skipped then c else forEach 8 (fun o c => c.presence v o) c
  (c1.onSel (fun s => { s.freeEntries n with next := n + 1 })).evaluate v

/-- What a tick presents (R65, R70): the next period to present, or nothing while the present period minus P is earlier. -/
def Chip.presentTick (c : Chip) : Chip :=
  if earlier (c.cad.period - BitVec.ofNat 32 c.sel.delay) c.sel.next then c else c.presentPeriod false

/-! ## Return handover (R116, R118) -/

/-- A block whose first period is `first` is eligible (R118): from the period of the last restart on. Once the first blocks after a
restart are over, every later block is eligible, whatever the half-range ordering says (R116). -/
def TapUnit.isEligible (first : Period) (t : TapUnit) : Bool :=
  match t.eligible with
  | some m => atOrAfter first m
  | none => true

/-- Hand over the block that holds period `first`, with block length `d`: its half shows it when it is eligible, and nothing
otherwise (R116). -/
def TapUnit.hand (d : Nat) (first : Period) (t : TapUnit) : TapUnit :=
  let half : Fin 2 := Fin.ofNat 2 (blockOf d first)
  if t.isEligible first then { t with shown := t.shown.set half (some (blockOf d first)), eligible := none }
  else { t with shown := t.shown.set half none }

/-- The handover of a boundary (R116): block m − 1 − J is handed over, m being the block that begins. -/
def Chip.handover (c : Chip) : Chip :=
  let first := c.cad.period - BitVec.ofNat 32 ((1 + c.tap.j) * c.cfg.blockLen)
  { c with tap := c.tap.hand c.cfg.blockLen first }

/-- The return handover restarts (R118): nothing is shown, J is computed anew, and blocks from period `m` on are eligible. -/
def Chip.restartHandover (m : Period) (c : Chip) : Chip :=
  { c with tap := { c.tap with shown := Vector.replicate 2 none, j := jOf c.sel.delay c.cfg.blockLen, eligible := some m } }

/-! ## Restarts of the records (R140 to R142, R155) -/

/-- Every record restarts C (R142). -/
def ReturnUnit.restartMain (u : ReturnUnit) : ReturnUnit :=
  { u with records := u.records.map (fun x => { x with main := x.main.restart }) }

/-- A cadence step: every record restarts C and Ct (R141), and every talk entry becomes QUIET (R155). -/
def ReturnUnit.stepTo (u : ReturnUnit) : ReturnUnit :=
  { u with
    records := u.records.map (fun x => { x with main := x.main.restart, talkRamp := x.talkRamp.restart })
    talk := u.talk.map (fun e => { e with state := .quiet, hold := none, owner := none }) }

/-! ## A change of the presentation delay (R69, R70, R142) -/

/-- Skip periods: each is handed over with every peer origin missing (R70). -/
def Chip.skip : Nat → Chip → Chip
  | 0, c => c
  | k + 1, c => Chip.skip k (c.presentPeriod true)

/-- Take up the new delay at the boundary (R70, R118, R142): restarts, then the skipped periods of a decrease, then what the tick
presents. -/
def Chip.changeDelay (p1 : Nat) (c : Chip) : Chip :=
  let m := c.sel.next
  let c1 := (c.onSel (fun s => { s with delay := p1 })).restartHandover m
  let c2 : Chip := { c1 with ret := c1.ret.restartMain }
  let target := c.cad.period - BitVec.ofNat 32 p1
  (Chip.skip (if later target m then (target - m).toNat else 0) c2).presentTick

/-- PRESENTATION_DELAY_CHANGE (R69, R70): at a block boundary with a pending P, the PRESENT cells complete with the delay then in
effect; a different P takes effect, and an equal one leaves the boundary's handover and presentation as they are. A PRESENT taken
between the boundary's tick and this step has replaced the pending P (DESIGN CHOICE, log entry 8); the ORDER DONE of the cells comes
before the presentation's events (DESIGN CHOICE, log entry 59). -/
def Chip.delayChange (c : Chip) : Chip :=
  match c.sel.deferred, c.sel.pending with
  | true, some p1 =>
    let c1 := (c.onSel (fun s => { s with deferred := false, pending := none })).doneWaiting .boundary (wordOf p1)
    if p1 = c.sel.delay then c1.handover.presentTick else c1.changeDelay p1
  | _, _ => c

end Sys2Proof.Machine
end

