-- ==== Sys2Proof/Machine/Tick.lean ====
section
/-! DEFINITION. The tick: the own burst and the own row, the block boundary, what every tick counts, the steps that fall due at
a tick, and TICK itself (R9, R31, R40, R66, R87, R93, R107 to R116). -/

namespace Sys2Proof.Machine

/-! ## The own burst and the own row (R9, R66, R113) -/

/-- The own slot of position `p` and kind `k` for period `n` (R4, R113): sample and marks from frame n mod D of the FROZEN bank,
and the stamped step of a MIC slot. -/
def Chip.ownSlot (c : Chip) (n : Period) (p : Nat) (k : SlotKind) : Slot :=
  let bank := c.tap.banks[c.tap.frozen]
  let frame := bank.frames[Fin.ofNat 32 (n.toNat % c.cfg.blockLen)]
  let e := frame[p]?.getD {}
  { sample := e.sample, valid := e.written, overload := e.overload,
    field := match k with
      | .mic => .step (c.stampFor p n)
      | .talk => .key e.key
      | _ => .absent }

/-- The own slots for period `n` under the plan in force (R9, R66). -/
def Chip.ownSlots (c : Chip) (n : Period) : List Slot :=
  ((c.planAt n).ownKinds c.self).zipIdx.map (fun q => c.ownSlot n q.2 q.1)

/-- File this node's own slots for the present period into its own row (R66). -/
def Chip.fileOwn (c : Chip) : Chip :=
  let n := c.cad.period
  let e : AlignEntry :=
    { state := .held, period := n, slots := c.ownSlots n, version := (c.planAt n).version, unsync := false }
  c.onSel (fun s => { s with store := upd s.store c.self (fun row => row.set (mod32 n) e) })

/-- The aux arbitration (R87): what the aux field of the burst of the present period carries, and the part with the winner sent
or the fragment number advanced. -/
def Chip.arbitrate (c : Chip) : Aux × Chip :=
  let n := c.cad.period
  let ready : Option (Aux × Chip) :=
    (c.msg.takeReady c.self).map (fun q => (q.1, { c with msg := q.2 }))
  let fragment : Aux × Chip :=
    let q := c.pln.supply n
    (.fragment q.1, { c with pln := q.2 })
  if c.self = c.cfg.authority then
    if c.pln.announcing n then
      if n.toNat % 2 = 0 then fragment else ready.getD (.absent, c)
    else ready.getD fragment
  else ready.getD (.absent, c)

/-- The answer at the head of the queue is removed (R93). -/
def Chip.popAnswer (c : Chip) : Option Answer × Chip :=
  match c.msg.answers with
  | [] => (none, c)
  | a :: rest => (some a, { c with msg := { c.msg with answers := rest } })

/-- The own burst of the present period (R9). -/
def Chip.ownBurst (c : Chip) (aux : Aux) (answer : Option Answer) : Burst :=
  { origin := c.self, serial := c.cfg.serial, period := c.cad.period, version := (c.planAt c.cad.period).version,
    hop := 0, cadence := c.cadenceReport, ports := c.portReport, aux := aux, answer := answer,
    slots := c.ownSlots c.cad.period }

/-- Build the own burst and hand it to both transmitters (R9, R31). -/
def Chip.buildBurst (c : Chip) : Chip :=
  let (aux, c1) := c.arbitrate
  let (answer, c2) := c1.popAnswer
  let e : TxEntry := { burst := c2.ownBurst aux answer, forwarded := false }
  (c2.handOver .east e).handOver .west e

/-! ## The block boundary (R107, R108, R111, R112) -/

/-- The unwritten (frame, channel) pairs of a SEND tap's sent positions in a bank (R112). -/
def unwritten (bank : SendBank) (d total : Nat) (t : Tap) : Nat :=
  ((List.range d).flatMap (fun f => (List.range t.chans).filter (fun ch =>
    t.first + ch < total &&
      !(((bank.frames[f]?.bind (fun fr => fr[t.first + ch]?)).map (·.written)).getD false)))).length

/-- Judge one tap for underrun at the freeze (R112, R120). -/
def Chip.judgeUnderrun (bank : SendBank) (total k : Nat) (c : Chip) : Chip :=
  match c.tap.taps[k]? with
  | none => c
  | some t =>
    let n := unwritten bank c.cfg.blockLen total t
    if t.kind = .send ∧ 0 < n then
      let taps := c.tap.taps.set k { t with underrun := t.underrun + wordOf n }
      Chip.post .sendUnderrun k (wordOf n) { c with tap := { c.tap with taps := taps } }
    else c

/-- A send bank with nothing written (R109, R112). -/
def clearedBank (block : Nat) : SendBank := { block := block }

/-- The send halves change roles at the boundary of the block in progress (R112): the FILLING bank is judged and becomes FROZEN,
and the other is cleared for the next block. Late marks are cleared (R111). SEND UNDERRUN of several taps is posted in ascending tap
number, an order that R112 and R186 do not give (DESIGN CHOICE, log entry 51). -/
def Chip.freeze (c : Chip) : Chip :=
  let newly := c.tap.frozen + 1
  let bank := c.tap.banks[newly]
  let total := (c.planAt c.cad.period).total c.self
  let c1 := forEach 12 (fun k c => c.judgeUnderrun bank total k.val) c
  let next := blockOf c.cfg.blockLen (c.cad.period + BitVec.ofNat 32 c.cfg.blockLen)
  { c1 with tap :=
    { c1.tap with
      banks := c1.tap.banks.set c.tap.frozen (clearedBank next)
      frozen := newly
      taps := c1.tap.taps.map (fun t => { t with lateMark := false }) } }

/-- The present period is the first of a block (R107). -/
def Chip.atBoundary (c : Chip) : Bool := c.cad.period.toNat % c.cfg.blockLen == 0

/-- BLOCK goes high for its configured width (R108). Where it is still high from the boundary before, the width starts anew and what was
left of the older one is dropped, which R108 does not say (DESIGN CHOICE, log entry 58). -/
def Chip.raiseStrobe (c : Chip) : Chip := { c with tap := { c.tap with strobe := some c.cfg.blockWidth } }

/-- The length of the present period in age units (R40): 64, displaced as slewing and word-clock moves have ordered (R45, R47). -/
def Chip.span (c : Chip) : Nat := (64 + c.cad.tickMove).toNat

/-- BLOCK_STROBE_END (R108): BLOCK returns low where its width ends within the next `span` age units. -/
def TapUnit.strobeEnd (span : Nat) (t : TapUnit) : TapUnit :=
  match t.strobe with
  | some w => if w ≤ span then { t with strobe := none } else t
  | none => t

/-! ## What every tick counts (R41) -/

/-- The counting of a tick in every block (R41); the P advice is computed as well (R71). `span` is the number of age units that the
period before it lasted. -/
def Chip.countTick (span : Nat) (c : Chip) : Chip :=
  let c1 := c.countCadence
  let sel := c1.sel.count
  { c1 with
    rng := { c1.rng with port := c1.rng.port.both (·.count), joinQuiet := min 192 (c1.rng.joinQuiet + 1) }
    sel := { sel with advice := sel.adviceOf c.self }
    msg := c1.msg.count
    pre := c1.pre.count
    tap := { c1.tap with strobe := c1.tap.strobe.map (· - span) } }

/-! ## The steps that fall at a tick -/

/-- HOLD_END for one talk entry (R147). -/
def Chip.holdEnd (i : Fin 4) (c : Chip) : Chip :=
  { c with ret := { c.ret with talk := upd c.ret.talk i (·.holdEnd) } }

/-- SETTLE_END for one preamp input (R165). -/
def Chip.settleEnd (i : InputId) (c : Chip) : Chip := { c with pre := c.pre.settleEnd c.cad.period i }

/-- TRANSACTION_START (R162). -/
def Chip.startTransaction (c : Chip) : Chip := { c with pre := c.pre.start c.cfg.initial }

/-- The expiries of one port (R23 to R25, R30). -/
def Chip.portExpiries (p : Port) (c : Chip) : Chip :=
  (((c.acquireFailed p).windowEnd p).quarantineEnd p).drillEnd p

/-- Take every step that has fallen due at the present tick and has not been commanded yet, in one fixed order (log entry 5);
outbox entries from the last place to the first, which R92 and R98 leave open. The ring state is evaluated as well (R78). `span`
is the number of age units of the present period that have passed. -/
def Chip.settleDue (span : Nat) (c : Chip) : Chip :=
  let c := forEach 4 (fun i c => c.holdEnd i) c
  let c := c.delayChange
  let c := (c.adopt).expireAssembly
  let c := (c.portExpiries .east).portExpiries .west
  let c := ((c.joinQuietEnd).referenceLost).holdoverExpiry
  let c := forEach 8 (fun o c => c.rosterLeave o) c
  let c := forEach 8 (fun o c => c.onSel (fun s => (s.pathSilenceEnd o .east).pathSilenceEnd o .west)) c
  let c := c.evalRing
  let c := forEach 16 (fun k c => c.deadlineReached (15 - k.val)) c
  let c := forEach 16 (fun k c => c.backoffExpired (15 - k.val)) c
  let c := forEach 64 (fun i c => c.settleEnd i) c
  let c := (c.answerTimeout).startTransaction
  { c with tap := c.tap.strobeEnd span }

/-- The steps that fall due at this tick and may come before or after the burst of the tick (R25, R45, R53, R75, R89, R98, R164):
each of them is taken before it or left for its command, in a free order (log entry 47). -/
def Chip.dueFirst (c : Chip) : Chip :=
  let port (p : Port) (c : Chip) : Chip :=
    (((c.takeFirst (c.portOf p).acquireDue (·.acquireFailed p)).takeFirst (c.portOf p).windowDue
      (·.windowEnd p)).takeFirst (c.portOf p).quarantineDue (·.quarantineEnd p)).takeFirst (c.portOf p).drillDue (·.drillEnd p)
  let c := port .west (port .east c)
  let c := c.takeFirst c.lossDue (·.referenceLost)
  let c := c.takeFirst c.holdoverDue (·.holdoverExpiry)
  let c := forEach 8 (fun o c => c.takeFirst (c.leaveDue o) (·.rosterLeave o)) c
  let c := forEach 16 (fun k c => c.takeFirst (c.msg.entryIs (15 - k.val) (·.expired)) (·.deadlineReached (15 - k.val))) c
  let c := forEach 16 (fun k c => c.takeFirst (c.msg.entryIs (15 - k.val) (·.selfDue c.self)) (·.backoffExpired (15 - k.val))) c
  c.takeFirst c.pre.answerDue (·.answerTimeout)

/-! ## TICK (R40) -/

/-- The send side of a tick: the burst, once join quiet was over before this tick (R31), and the own row (R66). -/
def Chip.sendSide (quietOver : Bool) (c : Chip) : Chip :=
  (if quietOver then c.buildBurst else c).fileOwn

/-- The return side of a tick (R65, R107, R116): the handover of a boundary and the presentation. At a boundary with a pending P
they wait for the change of presentation delay (R69, R70). What comes between that tick and the change (a copy, a PRESENT) meets
the old P, the old pending P and the old next period (DESIGN CHOICE, log entry 8). -/
def Chip.returnSide (boundary : Bool) (c : Chip) : Chip :=
  if boundary && c.sel.pending.isSome then c.onSel (fun s => { s with deferred := true })
  else (if boundary then c.handover else c).presentTick

/-- A new period begins (R40), and the end of a staged assembly may fall due at its tick (R18). -/
def Chip.beginPeriod (n : Period) (c : Chip) : Chip :=
  { c with cad := c.cad.begin n, pln := c.pln.markExpiry n }

/-- The blocks work a tick (R40): the block boundary, the own burst, the own row and the presentation, with the steps that fall
due at the tick taken before the burst or left for their commands. The events of one tick are posted in that order: SEND UNDERRUN of
the freeze, those of the steps taken, RETURN LOSS and RETURN RESTORED, then CLAIM LOST and MESSAGE FAILED of the evaluation; R186 lets
either of two blocks' events be first (DESIGN CHOICE, log entry 59). The burst is built before the evaluation, so a CLAIM or RELEASE that
the evaluation enters leaves with the next burst at the earliest; no rule gives that order (DESIGN CHOICE, log entry 63). -/
def Chip.workTick (quietOver : Bool) (c : Chip) : Chip :=
  let boundary := c.atBoundary
  let c1 := if boundary then (c.freeze).raiseStrobe else c
  ((c1.dueFirst).sendSide quietOver).returnSide boundary

/-- TICK (R40): the steps still due are taken, the next period begins, every block counts, and the blocks work the tick. There are
no ticks outside RUN. -/
def Chip.tick (c : Chip) : Chip :=
  if c.sys.mode = .run then
    let c1 := c.settleDue c.span
    let c2 := (c1.beginPeriod (c1.cad.period + 1)).countTick c1.span
    c2.workTick (c1.rng.joinQuiet == 192)
  else c

end Sys2Proof.Machine
end

