-- ==== Sys2Proof/Machine/System.lean ====
section
/-! DEFINITION. Full reset, the start of loading, the checks of the configuration image, the placing of its items, entry to RUN
and to HALTED (R104, R185, R190 to R194). -/

namespace Sys2Proof.Machine

/-! ## Full reset (R190) -/

/-- A full reset (R190): every block at its reset value, mode LOADING, the start cause and the straps as taken, and one CONFIG
event with subject 0 (reset) and the cause as value (R186). Light present stays as the receivers report it (R21). -/
def Chip.fullReset (cause : StartCause) (load : LoadState) (straps : Fin 16) (c : Chip) : Chip :=
  let light (p : PortState) : PortState := { light := p.light }
  { sys := { cause := cause, load := load, strapBase := straps }
    rng := { port := c.rng.port.both light }
    ord := { events := [{ kind := .config, period := 0, subject := 0, value := wordOf (causeCode cause) }]
             freeCount := c.ord.freeCount } }

/-- POWER_ON (R190): a full reset with start cause POWER, held at the start of LOADING. -/
def Chip.powerOn (straps : Fin 16) (c : Chip) : Chip := c.fullReset .power .held straps

/-- RESET_PIN (R190): a full reset, held until the release. Start cause PIN; an assertion while the part is held is the one of
that start, and keeps its cause (POWER when power comes up; log entry 21). -/
def Chip.resetPin (straps : Fin 16) (c : Chip) : Chip :=
  c.fullReset (if c.sys.load = .held then c.sys.cause else .pin) .held straps

/-- RESET_RELEASE (R190): loading begins. -/
def Chip.resetRelease (c : Chip) : Chip :=
  if c.sys.load = .held then { c with sys := { c.sys with load := .reading } } else c

/-- RESTART (R185): a full reset with start cause ORDER; RESET is not asserted, so loading begins at once. -/
def Chip.restartOrder (straps : Fin 16) (c : Chip) : Chip := c.fullReset .order .reading straps

end Sys2Proof.Machine

namespace Sys2Proof

open Machine

/-! ## The checks of the image (R191, R104) -/

/-- Byte `a` of the configuration memory; a memory that does not answer reads as all ones (R191). -/
def Machine.spiByte (bytes : List Byte) (a : Nat) : Byte := bytes.getD a 0xFF#8

/-- Word `k` of the configuration memory: four bytes, the most significant byte first (R191). -/
def Machine.spiWord (bytes : List Byte) (k : Nat) : Word :=
  spiByte bytes (4 * k) ++ spiByte bytes (4 * k + 1) ++ spiByte bytes (4 * k + 2) ++ spiByte bytes (4 * k + 3)

/-- The sum of words 0 to L − 1, modulo 2^32 (R191). -/
def Machine.imageSum (bytes : List Byte) (l : Nat) : Word :=
  (List.range l).foldl (fun acc k => acc + spiWord bytes k) 0

/-- The allotment of an item, if its owner and kind name one (R5). -/
def AllotItem.allotment (x : AllotItem) : Option Allotment :=
  match x.kind with
  | some k => if h : x.owner < 8 then some { owner := ⟨x.owner, h⟩, first := x.first, count := x.count, kind := k } else none
  | none => none

/-- The slot capacity of the configured rate. -/
def Image.capacity (m : Image) : Nat := if m.rate = 96000 then 128 else 256

/-- The initial plan, sorted by first slot (R8). -/
def Image.initialPlan (m : Image) : Plan :=
  { version := m.planVersion, allots := sortAllots (m.plan.filterMap AllotItem.allotment) }

/-- The initial plan and version meet R5 under the configured rate, with at most 16 allotments (R191). -/
def Image.planOk (m : Image) : Bool :=
  m.plan.all (fun x => x.allotment.isSome) && m.plan.length ≤ 16 && m.initialPlan.ok m.capacity

/-- The tap of an item, if its codes name a kind and a justification (R104). -/
def TapItem.tap (x : TapItem) : Option Tap :=
  match x.kind, x.just with
  | some k, some j => some { kind := k, base := x.base, chans := x.chans, first := x.first, just := j }
  | _, _ => none

/-- The length of a tap in words (R105). -/
def Machine.Tap.words (t : Tap) (d : Nat) : Nat := 2 * d * t.chans

/-- Two word ranges share no word. -/
def Machine.rangesApart (a la b lb : Nat) : Bool := a + la ≤ b || b + lb ≤ a

/-- The conditions of R104 on one tap, with block length `d` and control window base `w`. -/
def Machine.Tap.fits (d w : Nat) (t : Tap) : Bool :=
  1 ≤ t.chans && t.chans ≤ 128 && t.base + t.words d ≤ 4194304 && rangesApart t.base (t.words d) w 544 &&
  match t.kind with
  | .send => t.first + t.chans ≤ 96
  | .ret => t.first + t.chans ≤ 128

/-- The conditions of R104 on a pair of taps: no shared word, and no own position mapped by two SEND taps. -/
def Machine.Tap.clear (d : Nat) (t u : Tap) : Bool :=
  rangesApart t.base (t.words d) u.base (u.words d) &&
  match t.kind, u.kind with
  | .send, .send => rangesApart t.first t.chans u.first u.chans
  | _, _ => true

/-- Every pair of taps is clear of each other (R104). -/
def Machine.tapsClear (d : Nat) : List Tap → Bool
  | [] => true
  | t :: rest => rest.all (fun u => t.clear d u) && tapsClear d rest

/-- The taps of an image (R103). -/
def Image.tapList (m : Image) : List Tap := m.taps.filterMap TapItem.tap

/-- At most 12 taps, and every one passes R104 (R191). -/
def Image.tapsOk (w : Nat) (m : Image) : Bool :=
  m.taps.length ≤ 12 && m.taps.all (fun x => x.tap.isSome) && m.tapList.all (fun t => t.fits m.blockLen w)
    && tapsClear m.blockLen m.tapList

/-- Rate, source and D name permitted values (R191). -/
def Image.timingOk (m : Image) : Bool :=
  (m.rate == 48000 || m.rate == 96000) && m.source.isSome && [4, 8, 16, 32].contains m.blockLen

/-- Every list item names a record, entry or input of its table (R191). -/
def Image.listOk (m : Image) : Bool :=
  m.records.all (fun x => x.record ≤ 127) && m.talk.all (fun x => x.entry ≤ 3) &&
    m.initialSteps.all (fun x => x.1 ≤ 63)

/-- The first failing check of an image, if any (R191). -/
def Machine.loadCheck (bytes : List Byte) (m : Image) (w : Nat) : Option LoadFault :=
  let l := (spiWord bytes 1).toNat
  if spiWord bytes 0 ≠ 0x640 then some .format
  else if l < 16 ∨ 4096 < l then some .length
  else if imageSum bytes l ≠ 0 then some .sum
  else if 7 < m.nodeId ∨ 7 < m.authority then some .identity
  else if m.timingOk = false then some .timing
  else if m.planOk = false then some .plan
  else if m.tapsOk w = false then some .taps
  else if m.listOk = false then some .list
  else none

/-! ## Placing the items (R192) -/

/-- The initial steps by input; the last item of an input stands, one at or above the count is ignored, and an input that no
item names takes step 0 (DESIGN CHOICE, log entry 22). -/
def Image.steps (m : Image) : Vector PreStep 64 :=
  m.initialSteps.foldl
    (fun v x => if h : x.1 < 64 then (if x.1 < m.preampCount then v.set x.1 (clampStep x.2) else v) else v)
    (Vector.replicate 64 0)

/-- The settings of an image that hold for the whole of RUN, clamped (R192, R39, R104, R157). -/
def Image.settings (m : Image) : Settings :=
  { nodeId := Fin.ofNat 8 m.nodeId
    serial := m.serial
    rank := Fin.ofNat 16 (min 15 m.rank)
    authority := Fin.ofNat 8 m.authority
    rate96 := m.rate == 96000
    source := m.source.getD .internal
    holdover := clampNat 480 480000 m.holdover
    blockLen := m.blockLen
    blockWidth := clampNat 1 255 m.blockWidth
    preampCount := min 64 m.preampCount
    initial := m.steps
    settle := min 63 m.settle }

/-- A configured binding: a slot from 0 to 255, and none for every other code (R123, R145). -/
def Machine.bindingOf (n : Nat) : Option (Fin 256) := (slotOf n).getD none

/-- A length of a fade or of a talk ramp, clamped to 1 to 4,800 (R123, R145). -/
def Machine.lengthOf (x : Int) : Nat := (clampInt 1 4800 x).toNat

/-- The talk hold length, clamped to 0 to 48,000 (R145). -/
def Machine.holdOf (x : Int) : Nat := (clampInt 0 48000 x).toNat

/-- A record as an image configures it (R123). -/
def RecordItem.place (x : RecordItem) : Record :=
  { binding := bindingOf x.binding
    trim := clampInt (-144) 48 x.trim
    want := wantOf x.want
    seek := x.seek
    policy := x.policy
    fadeOut := lengthOf x.fadeOut
    fadeIn := lengthOf x.fadeIn
    mask := x.mask
    level := clampInt (-144) 48 x.level
    duck := clampInt (-120) 0 x.duck }

/-- The records of an image (R123, R192). -/
def Image.recordTable (m : Image) : Vector Record 128 :=
  m.records.foldl (fun v x => if h : x.record < 128 then v.set x.record x.place else v) (Vector.replicate 128 {})

/-- The talk entries of an image (R145, R192). -/
def Image.talkTable (m : Image) : Vector TalkEntry 4 :=
  m.talk.foldl (fun v x => if h : x.entry < 4 then v.set x.entry { binding := bindingOf x.binding } else v)
    (Vector.replicate 4 {})

/-- The Return Processor as an image configures it; a talk timing that the image does not list keeps its default (R145). That an image
may list some of the three timings and not the others is the model's reading (DESIGN CHOICE, log entry 29). -/
def Image.returnUnit (m : Image) : ReturnUnit :=
  { records := m.recordTable
    talk := m.talkTable
    attack := (m.talkAttack.map lengthOf).getD 48
    release := (m.talkRelease.map lengthOf).getD 480
    hold := (m.talkHold.map holdOf).getD 2400 }

/-- The kinds 1 to 21 of an attention word (R192). -/
def Machine.attentionOf (w : Word) : Word := w &&& 0x003FFFFE#32

end Sys2Proof

namespace Sys2Proof.Machine

/-- Place every item of a good image in its block (R192). -/
def Chip.place (m : Image) (c : Chip) : Chip :=
  let cfg := m.settings
  { c with
    cfg := cfg
    cad := { c.cad with rank := c.cad.rank.set cfg.nodeId (some cfg.rank) }
    sel := { c.sel with delay := clampNat 2 16 m.delay }
    pln := { c.pln with current := m.initialPlan }
    ret := m.returnUnit
    ord := { c.ord with attention := attentionOf m.attention }
    tap := { c.tap with taps := m.tapList } }

/-! ## The end of a load (R193, R194) -/

/-- CONFIG (loaded) is posted with the fault code (R191). -/
def Chip.postLoaded (f : Option LoadFault) (c : Chip) : Chip := c.post .config 1 (wordOf (faultCode f))

/-- A port whose light is present takes a light arrival at entry to RUN (R22). -/
def Chip.lightAtEntry (p : Port) (c : Chip) : Chip := if (c.portOf p).light then c.lightArrival p else c

/-- The first tick of RUN, which begins period 0 and is the boundary of block 0 (R193, R40): the blocks count, the ports act on
their light, half 0 is FROZEN for block 0 and half 1 FILLING for block 1, the presentation starts at −P, the handover restarts,
the sweep marks every input, the own row is filed and period −P is presented. Of two lit ports East takes its light arrival first, an
order that R22 does not give (DESIGN CHOICE, log entry 51). -/
def Chip.firstTick (c : Chip) : Chip :=
  let c1 := ((c.countTick 64).lightAtEntry .east).lightAtEntry .west
  let next : Period := 0 - BitVec.ofNat 32 c1.sel.delay
  let c2 := c1.onSel (fun s => { s with next := next })
  let banks : Vector SendBank 2 := (Vector.replicate 2 (clearedBank 0)).set 1 (clearedBank 1)
  let c3 : Chip := { c2 with tap := { c2.tap with banks := banks, frozen := 0 } }
  let c4 := (c3.restartHandover next).raiseStrobe
  let c5 : Chip := { c4 with pre := (c4.pre.markAll c4.cfg.preampCount).sweepUp c4.cfg.initial }
  (c5.sendSide false).presentTick

/-- RUN_ENTRY (R193). CONFIG (loaded) is posted before the PORT STATE of any port; R186 lets either be first (DESIGN CHOICE, log entry
51). -/
def Chip.runEntry (m : Image) (c : Chip) : Chip :=
  let c1 : Chip := { c with sys := { c.sys with mode := .run, load := .finished, loadFault := none } }
  ((c1.postLoaded none).place m).firstTick

/-- A failed load enters HALTED; no item is placed (R191, R194). -/
def Chip.haltEntry (f : LoadFault) (c : Chip) : Chip :=
  let c1 : Chip := { c with sys := { c.sys with mode := .halted, load := .finished, loadFault := some f } }
  c1.postLoaded (some f)

/-- CONFIG_LOAD (R191): in LOADING, with the image being read, the loader finishes reading and checks it. -/
def Chip.configLoad (bytes : List Byte) (m : Image) (c : Chip) : Chip :=
  if c.sys.mode = .loading ∧ c.sys.load = .reading then
    match loadCheck bytes m c.windowBase with
    | some f => c.haltEntry f
    | none => c.runEntry m
  else c

end Sys2Proof.Machine
end

