-- ==== Sys2Proof/Machine/Orders.lean ====
section
/-! DEFINITION. The orders: how a code write is taken (R182), and what each order of the order set does with its arguments
(R10, R11, R29, R55, R69, R72, R137 to R139, R152 to R154, R170, R171, R177, R178, R184, R185). -/

namespace Sys2Proof.Machine

/-- What an order does once it is taken: the cell, its argument copies, and the part with code and tag recorded. -/
abbrev Action := CellId → Vector Word 7 → Chip → Chip

/-! ## Taking a code (R182) -/

/-- Change one order cell. -/
def Chip.onCell (i : CellId) (f : OrderCell → OrderCell) (c : Chip) : Chip :=
  { c with ord := { c.ord with cells := upd c.ord.cells i f } }

/-- One order cell. -/
def Chip.cellAt (c : Chip) (i : CellId) : OrderCell := c.ord.cells[i]

/-- A code write that finds its cell RUNNING sets the overrun mark (R182). -/
def Chip.markOverrun (i : CellId) (c : Chip) : Chip := c.onCell i (fun x => { x with overrun := true })

/-- Step 1 of taking an order: code and tag are recorded and the overrun mark is cleared (R182). -/
def Chip.recordCode (i : CellId) (tag : BitVec 16) (code : Byte) (c : Chip) : Chip :=
  c.onCell i (fun x => { x with code := code, tag := tag, overrun := false })

/-- A code write of an order (R182): not taken in LOADING, an overrun at a RUNNING cell, FAILED with NOT RUNNING in HALTED, and
otherwise handed to the block that owns the order. -/
def Chip.codeWrite (i : CellId) (tag : BitVec 16) (code : Byte) (act : Action) (c : Chip) : Chip :=
  match c.sys.mode with
  | .loading => c
  | .halted =>
    if (c.cellAt i).state = .running then c.markOverrun i else (c.recordCode i tag code).failFree i .notRunning
  | .run =>
    if (c.cellAt i).state = .running then c.markOverrun i else act i (c.cellAt i).args (c.recordCode i tag code)

/-- A code write of 0 (R182): a cell that is not RUNNING returns to IDLE with the written tag. -/
def Chip.codeZero (i : CellId) (tag : BitVec 16) (c : Chip) : Chip :=
  if c.sys.mode = .loading then c
  else if (c.cellAt i).state = .running then c.markOverrun i
  else c.onCell i (fun x => { state := .idle, tag := tag, args := x.args })

/-- A code write of RESTART (R185): taken in RUN and in HALTED by a cell that is not RUNNING. -/
def Chip.restartWrite (i : CellId) (straps : Fin 16) (c : Chip) : Chip :=
  if c.sys.mode = .loading then c
  else if (c.cellAt i).state = .running then c.markOverrun i
  else c.restartOrder straps

/-- A code that names no order (R182). -/
def actUnknown : Action := fun i _ c => c.failFree i .unknownOrder

/-! ## The return gain stage (R137 to R139) -/

/-- TRIM(record, g) (R137). -/
def actTrim : Action := fun i a c =>
  match recordOf (argU a 0) with
  | none => c.failFree i .noRecord
  | some r =>
    let g := clampInt (-144) 48 (argS a 1)
    (c.onRecord r (fun x => { x with trim := g })).done i (wordOfInt g)

/-- LOSS(record, policy, fade-out, fade-in) (R138). -/
def actLoss : Action := fun i a c =>
  match recordOf (argU a 0) with
  | none => c.failFree i .noRecord
  | some r =>
    match policyOfCode (argU a 1) with
    | none => c.failFree i .unknownOrder
    | some p =>
      (c.onRecord r (fun x =>
        { x with policy := p, fadeOut := lengthOf (argS a 2), fadeIn := lengthOf (argS a 3) })).done i
        (wordOf (policyCode p))

/-- The record's part of a new binding (R139, R140, R176). -/
def Record.rebind (b : Option (Fin 256)) (x : Record) : Record :=
  { x with binding := b, main := x.main.restart, heldSample := 0, aLast := none, present := false,
           slotInput := none, claimDue := true }

/-- BIND(record, slot or none) (R139): the claim logic gives the old input up (R176), and the record is bound anew. -/
def actBind : Action := fun i a c =>
  match recordOf (argU a 0) with
  | none => c.failFree i .noRecord
  | some r =>
    match slotOf (argU a 1) with
    | none => c.failFree i .unknownOrder
    | some b =>
      if (c.recordAt r).binding = b then c.done i (wordOf (bindingCode b))
      else ((c.giveUp r).onRecord r (·.rebind b)).done i (wordOf (bindingCode b))

/-! ## Talkback (R152 to R154) -/

/-- TALK(record, mask, level, duck) (R152); the mask is the low four bits of its word (R184). -/
def actTalk : Action := fun i a c =>
  match recordOf (argU a 0) with
  | none => c.failFree i .noRecord
  | some r =>
    let level := clampInt (-144) 48 (argS a 2)
    (c.onRecord r (fun x =>
      { x with mask := BitVec.ofNat 4 (argU a 1), level := level, duck := clampInt (-120) 0 (argS a 3) })).done i
      (wordOfInt level)

/-- TALKSET(attack, release, hold) (R153). -/
def actTalkset : Action := fun i a c =>
  let h := holdOf (argS a 2)
  let c1 : Chip :=
    { c with ret := { c.ret with attack := lengthOf (argS a 0), release := lengthOf (argS a 1), hold := h } }
  c1.done i (wordOf h)

/-- A talk entry with a new binding (R154). -/
def talkBound (b : Option (Fin 256)) : TalkEntry := { binding := b }

/-- TALKBIND(entry, slot or none) (R154). -/
def actTalkbind : Action := fun i a c =>
  if h : argU a 0 < 4 then
    match slotOf (argU a 1) with
    | none => c.failFree i .unknownOrder
    | some b =>
      let k : Fin 4 := ⟨argU a 0, h⟩
      if c.ret.talk[k].binding = b then c.done i (wordOf (bindingCode b))
      else
        let c1 : Chip := { c with ret := { c.ret with talk := c.ret.talk.set k (talkBound b) } }
        c1.done i (wordOf (bindingCode b))
  else c.failFree i .unknownOrder

/-! ## Preamp gain (R170, R171, R177, R178) -/

/-- The order in progress of a cell that waits (R181). -/
def inProgress (code : Byte) (a : Vector Word 7) (w : WaitFor) : OrderInProgress := { code := code, args := a, waits := w }

/-- Enter an order's message, and leave the cell RUNNING where the outbox holds it (R183). -/
def Chip.sendFor (i : CellId) (code : Byte) (a : Vector Word 7) (dest : NodeId) (body : MsgBody) (r : RecordId)
    (c : Chip) : Chip :=
  match c.send dest body (.cell i r) with
  | (c1, true) => c1.keepRunning i (inProgress code a .message)
  | (c1, false) => c1

/-- A step as a GAIN body carries it (R83). -/
def bodyStep (s : PreStep) : Fin 64 := ⟨s.val, by omega⟩

/-- WANT(record, step) (R178). -/
def actWant : Action := fun i a c =>
  match recordOf (argU a 0) with
  | none => c.failFree i .noRecord
  | some r =>
    let w := wantOf (argU a 1)
    let c1 := c.onRecord r (fun x => { x with want := w })
    match (c.recordAt r).claim, w, (c.recordAt r).slotInput with
    | .held, some s, some (owner, p) => c1.sendFor i 2 a owner (.gain p (bodyStep s)) r
    | _, _, _ => c1.done i (wordOf (stepCode w))

/-- SEEK(record, on or off) (R177). -/
def actSeek : Action := fun i a c =>
  match recordOf (argU a 0) with
  | none => c.failFree i .noRecord
  | some r =>
    match argU a 1 with
    | 0 => (c.onRecord r (fun x => { x with seek := false })).done i 0
    | 1 =>
      match (c.onRecord r (fun x => { x with seek := true })).tryClaim r with
      | (c1, true) => c1.done i 1
      | (c1, false) => c1.done i 0
    | _ => c.failFree i .unknownOrder

/-- RELEASE(record) (R177): a HELD record gives its claim up, and a RELEASE message goes unless another record shares it. -/
def actRelease : Action := fun i a c =>
  match recordOf (argU a 0) with
  | none => c.failFree i .noRecord
  | some r =>
    match (c.recordAt r).claim, (c.recordAt r).slotInput with
    | .held, some (owner, p) =>
      let c1 := c.onRecord r (fun x => { x with claim := .none })
      if c1.shared r owner p then c1.done i 0 else c1.sendFor i 4 a owner (.release p) r
    | _, _ => c.failFree i .notHolder

/-- STEP(input, step) (R170). -/
def actStep : Action := fun i a c =>
  match c.cfg.inputOf (argU a 0) with
  | none => c.failFree i .noInput
  | some p =>
    match c.pre.inputs[p].claimant with
    | some d => c.fail i .held (wordOf d.val)
    | none =>
      let s := clampStep (argU a 1)
      match c.pre.request p s.val .loc with
      | (u, true) => Chip.done i (wordOf s.val) { c with pre := u }
      | (_, false) => c.failFree i .busy

/-- UNCLAIM(input) (R171). -/
def actUnclaim : Action := fun i a c =>
  match c.cfg.inputOf (argU a 0) with
  | none => c.failFree i .noInput
  | some p =>
    match c.pre.inputs[p].claimant with
    | none => c.done i 255
    | some d =>
      let c1 : Chip := { c with pre := c.pre.onInput p (fun x => { x with claimant := none }) }
      (c1.enterQuiet d (.drop p)).done i (wordOf d.val)

/-! ## The slot plan (R10, R11) -/

/-- The refusal of a new allotment against the other draft entries, if any (R10). -/
def allotRefusal (capacity : Nat) (others : List Allotment) (x : Allotment) : Option Reason :=
  if capacity < x.first + x.count then some .capacity
  else if others.any (fun b => x.meets b) then some .overlap
  else if 96 < ownTotal others x.owner + x.count then some .capacity
  else none

/-- Write an entry of the draft (R10). -/
def PlanStore.setDraft (s : PlanStore) (k : Fin 16) (x : Option Allotment) : PlanStore :=
  { s with draft := s.draft.set k x }

/-- The draft's total of allotted slots (R10). -/
def PlanStore.draftTotal (s : PlanStore) : Nat := allotTotal (draftAllots s.draft)

/-- Complete an accepted ALLOT with the draft's total (R10). -/
def Chip.allotDone (i : CellId) (k : Fin 16) (x : Option Allotment) (c : Chip) : Chip :=
  let s := c.pln.setDraft k x
  Chip.done i (wordOf s.draftTotal) { c with pln := s }

/-- ALLOT at entry `k`, with the owner and kind named (R10). -/
def Chip.allotAt (i : CellId) (k : Fin 16) (x : Allotment) (c : Chip) : Chip :=
  if x.count = 0 then c.allotDone i k none
  else
    match allotRefusal c.cfg.capacity (draftAllots (c.pln.draft.set k none)) x with
    | some r => c.failFree i r
    | none => c.allotDone i k (some x)

/-- ALLOT(index, owner, first, count, kind) (R10). -/
def actAllot : Action := fun i a c =>
  if c.self ≠ c.cfg.authority then c.failFree i .notAuthority
  else if h : argU a 0 < 16 ∧ argU a 1 < 8 then
    match kindOfCode (argU a 4) with
    | none => c.failFree i .unknownOrder
    | some kind =>
      c.allotAt i ⟨argU a 0, h.1⟩ { owner := ⟨argU a 1, h.2⟩, first := argU a 2, count := argU a 3, kind := kind }
  else c.failFree i .unknownOrder

/-- The clamped lead of an announcement (R11). -/
def leadOf (x : Int) : Period := BitVec.ofInt 32 (clampInt 96 48000 x)

/-- The staged plan that ANNOUNCE makes of the draft (R11). -/
def PlanStore.announce (s : PlanStore) (e : Period) : PlanStore :=
  { s with
    staged := some
      { plan := { version := succVersion s.current.version, allots := sortAllots (draftAllots s.draft) }
        e := e, effective := e, announced := true }
    nextStaged := 0 }

/-- An announced plan that has not been adopted yet is held: the announcement runs (R11). -/
def PlanStore.announced (s : PlanStore) : Bool := (s.staged.map (·.announced)).getD false

/-- ANNOUNCE(lead) (R11). -/
def actAnnounce : Action := fun i a c =>
  if c.self ≠ c.cfg.authority then c.failFree i .notAuthority
  else if c.pln.announced then c.failFree i .inProgress
  else
    let c1 : Chip := { c with pln := c.pln.announce (c.cad.period + leadOf (argS a 0)) }
    c1.keepRunning i (inProgress 13 a .adoption)

/-! ## Presentation, drills, relocking, ages (R69, R29, R55, R72) -/

/-- A presentation delay, clamped to 2 to 16 (R69). -/
def delayOf (x : Int) : Nat := (clampInt 2 16 x).toNat

/-- PRESENT(P) (R69). -/
def actPresent : Action := fun i a c =>
  (c.onSel (fun s => { s with pending := some (delayOf (argS a 0)) })).keepRunning i (inProgress 14 a .boundary)

/-- Set a port's transmit mode for a time (R29); a SILENT transmitter goes dark (R27). -/
def PortState.drillFor (m : TxMode) (n : Nat) (s : PortState) : PortState :=
  let s1 := { s with txMode := m, drill := n }
  match m with
  | .silent => s1.silence
  | _ => s1

/-- A drill length, clamped to 1 to 480,000 (R29). -/
def drillOf (x : Int) : Nat := (clampInt 1 480000 x).toNat

/-- DRILL(port, mode, periods) (R29). -/
def actDrill : Action := fun i a c =>
  match portOfCode (argU a 0), txOfCode (argU a 1) with
  | some p, some m =>
    if argS a 2 = 0 ∨ m = .normal then (c.onPort p (·.drillFor .normal 0)).done i 0
    else
      let n := drillOf (argS a 2)
      (c.onPort p (·.drillFor m n)).done i (wordOf n)
  | _, _ => c.failFree i .unknownOrder

/-- RELOCK (R55). -/
def actRelock : Action := fun i _ c =>
  match c.arm with
  | (c1, n) => c1.done i (wordOf n)

/-- CLEARAGES (R72). -/
def actClearages : Action := fun i _ c => (c.onSel (·.clearAges)).done i (wordOf c.sel.advice)

/-! ## The order set -/

/-- The action of an order code other than 0 and RESTART (the order set of chapter 10.3). -/
def actionOf (code : Nat) : Action :=
  match code with
  | 1 => actTrim
  | 2 => actWant
  | 3 => actSeek
  | 4 => actRelease
  | 5 => actBind
  | 6 => actTalk
  | 7 => actTalkset
  | 8 => actTalkbind
  | 9 => actLoss
  | 10 => actStep
  | 11 => actUnclaim
  | 12 => actAllot
  | 13 => actAnnounce
  | 14 => actPresent
  | 15 => actDrill
  | 16 => actRelock
  | 17 => actClearages
  | _ => actUnknown

/-- A code word taken as it stands (R182, R196). -/
def Chip.takeCode (i : CellId) (w : Word) (straps : Fin 16) (c : Chip) : Chip :=
  let code : Byte := w.extractLsb' 0 8
  let tag : BitVec 16 := w.extractLsb' 16 16
  if code = 0 then c.codeZero i tag
  else if code = 18 then c.restartWrite i straps
  else c.codeWrite i tag code (actionOf code.toNat)

end Sys2Proof.Machine
end

