-- ==== Sys2Proof/Machine/Bus.lean ====
section
/-! DEFINITION. The host on the memory bus: writes passed to memory and classified by address, send capture and late writes,
argument copies, and the read of the event head word (R101, R102, R110, R111, R180, R182, R187). -/

namespace Sys2Proof.Machine

/-! ## Send capture (R110, R111) -/

/-- Store a captured sample (R110): frame `f`, position `p` of the FILLING bank. -/
def SendBank.capture (f : Fin 32) (p : Nat) (e : SendEntry) (b : SendBank) : SendBank :=
  if h : p < 96 then { b with frames := upd b.frames f (fun fr => fr.set p e) } else b

/-- The entry that a whole write to a SEND tap stores (R106, R110). -/
def captured (j : Justification) (w : Word) : SendEntry :=
  { sample := wordSample j w, key := wordKey j w, overload := wordOverload j w, written := true }

/-- A late write (R111, R120): counted, and the first one of a block posts SEND LATE and sets the tap's late mark. -/
def Chip.lateWrite (k : Nat) (t : Tap) (frame : Nat) (c : Chip) : Chip :=
  let c1 : Chip :=
    { c with tap := { c.tap with taps := c.tap.taps.set k { t with lateCount := t.lateCount + 1, lateMark := true } } }
  if t.lateMark then c1 else c1.post .sendLate k (wordOf frame)

/-- A write taken at a word of SEND tap `k` (R110, R111): a whole one is captured in the FILLING half and late in the FROZEN
half; a partial one has no effect on the part. -/
def Chip.sendWrite (k : Nat) (pl : TapPlace) (data : Word) (enables : BitVec 4) (c : Chip) : Chip :=
  match c.tap.taps[k]? with
  | none => c
  | some t =>
    if enables ≠ 15 then c
    else if pl.half = c.tap.frozen then c.lateWrite k t pl.frame.val
    else
      let banks := upd c.tap.banks pl.half (·.capture pl.frame (t.first + pl.chan) (captured t.just data))
      { c with tap := { c.tap with banks := banks } }

/-! ## Argument copies (R180) -/

/-- A write to an argument word updates the part's copy in the enabled byte lanes, in every mode (R180). -/
def Chip.writeArgument (i : CellId) (k : Fin 7) (data : Word) (enables : BitVec 4) (c : Chip) : Chip :=
  c.onCell i (fun x => { x with args := x.args.set k (mergeLanes x.args[k] data enables) })

/-! ## A host write (R101, R102) -/

/-- What a write does to the part, by the area of its address (R102). -/
def Chip.takeWrite (addr : Nat) (data : Word) (enables : BitVec 4) (straps : Fin 16) (c : Chip) : Chip :=
  match c.area addr with
  | .code i => if enables = 15 then c.takeCode i data straps else c
  | .argument i k => c.writeArgument i k data enables
  | .sendTap k pl => c.sendWrite k pl data enables
  | .report _ => c
  | .returnTap _ _ => c
  | .plain => c

/-- A host write: passed to memory, and taken by the part as its area says (R101, R102). -/
def State.hostWrite (addr : Nat) (data : Word) (enables : BitVec 4) (s : State) : State :=
  { s with mem := memWrite s.mem addr data enables, chip := s.chip.takeWrite addr data enables s.straps }

/-- The word address of word `k` of cell `i` (R180). -/
def Chip.cellWord (c : Chip) (i : CellId) (k : Nat) : Nat := c.windowBase + 512 + 8 * i.val + k

/-- A code write of a cell (R182): the whole word reaches memory, and the part takes it as `f` says. -/
def State.codeWord (i : CellId) (tag : BitVec 16) (spare code : Byte) (f : Chip → Chip) (s : State) : State :=
  { s with mem := memWrite s.mem (s.chip.cellWord i 0) (Machine.codeWord tag spare code) 15, chip := f s.chip }

/-- A write to an argument word of a cell: the enabled lanes reach memory and the part's copy (R101, R180). -/
def State.argumentWrite (i : CellId) (k : Fin 7) (data : Word) (enables : BitVec 4) (s : State) : State :=
  { s with
    mem := memWrite s.mem (s.chip.cellWord i (k.val + 1)) data enables
    chip := s.chip.writeArgument i k data enables }

/-! ## The event head word (R187, R197) -/

/-- The event head word of kind, subject, events left and overflow mark (R197). -/
def headWord (kind subject left : Nat) (overflow : Bool) : Word :=
  BitVec.ofNat 32 (kind + subject % 65536 * 256 + left % 64 * 16777216 + (if overflow then 1073741824 else 0))

/-- The word that a read of the event head word returns, and the unit after it (R187). -/
def OrderUnit.readHead (o : OrderUnit) : Word × OrderUnit :=
  match o.events with
  | [] => (headWord 0 0 0 o.overflow, { o with latchPeriod := 0, latchValue := 0 })
  | e :: rest =>
    let mark := !rest.isEmpty && o.overflow
    (headWord (eventCode e.kind) e.subject rest.length mark,
     { o with events := rest, overflow := mark, latchPeriod := e.period, latchValue := e.value })

/-- EVENT_HEAD_READ (R187): the word returned is held as the last one read; in LOADING it is 0 and nothing is removed (R180). -/
def Chip.eventHeadRead (c : Chip) : Chip :=
  if c.sys.mode = .loading then { c with ord := { c.ord with readWord := 0 } }
  else
    let r := c.ord.readHead
    { c with ord := { r.2 with readWord := r.1 } }

end Sys2Proof.Machine
end

