-- ==== Sys2Proof/Machine/HostAccess.lean ====
section
/-! DEFINITION. Meanings of the host's accesses on the memory bus other than code writes: MEMORY_WRITE, SEND_TAP_WRITE, ARGUMENT_WRITE,
EVENT_HEAD_READ. -/

namespace Sys2Proof.Machine

/-- MEMORY_WRITE (R101): passed to memory in the enabled byte lanes; where the address lies in an order cell or a SEND tap it is
taken as that area says (R102). -/
def execMemoryWrite (addr : WordAddr) (data : Word) (enables : BitVec 4) (s : State) : Host.Outcome State Fault Refusal :=
  .next (s.hostWrite addr.toNat data enables)

/-- SEND_TAP_WRITE (R110, R111): a whole write. -/
def execSendTapWrite (addr : WordAddr) (data : Word) (s : State) : Host.Outcome State Fault Refusal :=
  .next (s.hostWrite addr.toNat data 15)

/-- ARGUMENT_WRITE (R180): a write to word `word + 1` of an order cell. -/
def execArgumentWrite (cell : CellId) (word : Fin 7) (data : Word) (enables : BitVec 4) (s : State) :
    Host.Outcome State Fault Refusal :=
  .next (s.argumentWrite cell word data enables)

/-- EVENT_HEAD_READ (R187). -/
def execEventHeadRead (s : State) : Host.Outcome State Fault Refusal :=
  .next (s.onChip (·.eventHeadRead))

end Sys2Proof.Machine
end

