-- ==== Sys2Proof/Machine/MessageEvents.lean ====
section
/-! DEFINITION. Meanings of the message timers: DEADLINE_REACHED, BACKOFF_EXPIRED. -/

namespace Sys2Proof.Machine

/-- DEADLINE_REACHED (R89) for the outbox entry at place `entry`, oldest first. -/
def execDeadlineReached (entry : Fin 16) (s : State) : Host.Outcome State Fault Refusal :=
  .next (s.onChip (·.deadlineReached entry.val))

/-- BACKOFF_EXPIRED (R96, R98) for the outbox entry at place `entry`, oldest first. -/
def execBackoffExpired (entry : Fin 16) (s : State) : Host.Outcome State Fault Refusal :=
  .next (s.onChip (·.backoffExpired entry.val))

end Sys2Proof.Machine
end

