-- ==== Sys2Proof/Machine/OrderWrites.lean ====
section
/-! DEFINITION. Meanings of the code writes: CODE_ZERO, UNKNOWN_ORDER and the eighteen orders (R182). -/

namespace Sys2Proof.Machine

/-- CODE_ZERO (R182). -/
def execCodeZero (cell : CellId) (tag : BitVec 16) (spare : Byte) (s : State) : Host.Outcome State Fault Refusal :=
  .next (s.codeWord cell tag spare 0 (·.codeZero cell tag))

/-- UNKNOWN_ORDER (R182): a code that names no order. -/
def execUnknownOrder (cell : CellId) (tag : BitVec 16) (spare : Byte) (code : Byte) (s : State) :
    Host.Outcome State Fault Refusal :=
  .next (s.codeWord cell tag spare code (·.codeWrite cell tag code actUnknown))

/-- TRIM (R137), code 1. -/
def execTrim (cell : CellId) (tag : BitVec 16) (spare : Byte) (s : State) : Host.Outcome State Fault Refusal :=
  .next (s.codeWord cell tag spare 1 (·.codeWrite cell tag 1 actTrim))

/-- WANT (R178), code 2. -/
def execWant (cell : CellId) (tag : BitVec 16) (spare : Byte) (s : State) : Host.Outcome State Fault Refusal :=
  .next (s.codeWord cell tag spare 2 (·.codeWrite cell tag 2 actWant))

/-- SEEK (R177), code 3. -/
def execSeek (cell : CellId) (tag : BitVec 16) (spare : Byte) (s : State) : Host.Outcome State Fault Refusal :=
  .next (s.codeWord cell tag spare 3 (·.codeWrite cell tag 3 actSeek))

/-- RELEASE (R177), code 4. -/
def execRelease (cell : CellId) (tag : BitVec 16) (spare : Byte) (s : State) : Host.Outcome State Fault Refusal :=
  .next (s.codeWord cell tag spare 4 (·.codeWrite cell tag 4 actRelease))

/-- BIND (R139), code 5. -/
def execBind (cell : CellId) (tag : BitVec 16) (spare : Byte) (s : State) : Host.Outcome State Fault Refusal :=
  .next (s.codeWord cell tag spare 5 (·.codeWrite cell tag 5 actBind))

/-- TALK (R152), code 6. -/
def execTalk (cell : CellId) (tag : BitVec 16) (spare : Byte) (s : State) : Host.Outcome State Fault Refusal :=
  .next (s.codeWord cell tag spare 6 (·.codeWrite cell tag 6 actTalk))

/-- TALKSET (R153), code 7. -/
def execTalkset (cell : CellId) (tag : BitVec 16) (spare : Byte) (s : State) : Host.Outcome State Fault Refusal :=
  .next (s.codeWord cell tag spare 7 (·.codeWrite cell tag 7 actTalkset))

/-- TALKBIND (R154), code 8. -/
def execTalkbind (cell : CellId) (tag : BitVec 16) (spare : Byte) (s : State) : Host.Outcome State Fault Refusal :=
  .next (s.codeWord cell tag spare 8 (·.codeWrite cell tag 8 actTalkbind))

/-- LOSS (R138), code 9. -/
def execLoss (cell : CellId) (tag : BitVec 16) (spare : Byte) (s : State) : Host.Outcome State Fault Refusal :=
  .next (s.codeWord cell tag spare 9 (·.codeWrite cell tag 9 actLoss))

/-- STEP (R170), code 10. -/
def execStep (cell : CellId) (tag : BitVec 16) (spare : Byte) (s : State) : Host.Outcome State Fault Refusal :=
  .next (s.codeWord cell tag spare 10 (·.codeWrite cell tag 10 actStep))

/-- UNCLAIM (R171), code 11. -/
def execUnclaim (cell : CellId) (tag : BitVec 16) (spare : Byte) (s : State) : Host.Outcome State Fault Refusal :=
  .next (s.codeWord cell tag spare 11 (·.codeWrite cell tag 11 actUnclaim))

/-- ALLOT (R10), code 12. -/
def execAllot (cell : CellId) (tag : BitVec 16) (spare : Byte) (s : State) : Host.Outcome State Fault Refusal :=
  .next (s.codeWord cell tag spare 12 (·.codeWrite cell tag 12 actAllot))

/-- ANNOUNCE (R11), code 13. -/
def execAnnounce (cell : CellId) (tag : BitVec 16) (spare : Byte) (s : State) : Host.Outcome State Fault Refusal :=
  .next (s.codeWord cell tag spare 13 (·.codeWrite cell tag 13 actAnnounce))

/-- PRESENT (R69), code 14. -/
def execPresent (cell : CellId) (tag : BitVec 16) (spare : Byte) (s : State) : Host.Outcome State Fault Refusal :=
  .next (s.codeWord cell tag spare 14 (·.codeWrite cell tag 14 actPresent))

/-- DRILL (R29), code 15. -/
def execDrill (cell : CellId) (tag : BitVec 16) (spare : Byte) (s : State) : Host.Outcome State Fault Refusal :=
  .next (s.codeWord cell tag spare 15 (·.codeWrite cell tag 15 actDrill))

/-- RELOCK (R55), code 16. -/
def execRelock (cell : CellId) (tag : BitVec 16) (spare : Byte) (s : State) : Host.Outcome State Fault Refusal :=
  .next (s.codeWord cell tag spare 16 (·.codeWrite cell tag 16 actRelock))

/-- CLEARAGES (R72), code 17. -/
def execClearages (cell : CellId) (tag : BitVec 16) (spare : Byte) (s : State) : Host.Outcome State Fault Refusal :=
  .next (s.codeWord cell tag spare 17 (·.codeWrite cell tag 17 actClearages))

/-- RESTART (R185), code 18, with the straps at the levels that the command reports (R122; log entry 52). -/
def execRestart (cell : CellId) (tag : BitVec 16) (write : RestartWrite) (s : State) : Host.Outcome State Fault Refusal :=
  .next { s.codeWord cell tag write.spare 18 (·.restartWrite cell write.straps) with straps := write.straps }

end Sys2Proof.Machine
end

