-- ==== Sys2Proof/Machine/PreampEvents.lean ====
section
/-! DEFINITION. Meanings of the events of the preamp port: TRANSACTION_START, STEP_CHARACTER_SENT, CHARACTER_RECEIVED, ANSWER_TIMER_EXPIRY,
SETTLE_END. -/

namespace Sys2Proof.Machine

/-- TRANSACTION_START (R162). -/
def execTransactionStart (s : State) : Host.Outcome State Fault Refusal :=
  .next (s.onChip (·.startTransaction))

/-- STEP_CHARACTER_SENT (R162, R164). -/
def execStepCharacterSent (s : State) : Host.Outcome State Fault Refusal :=
  .next (s.onChip (fun c => { c with pre := c.pre.charSent }))

/-- CHARACTER_RECEIVED (R161, R163, R164). -/
def execCharacterReceived (data : Byte) (parity : Bool) (stop : Bool) (s : State) : Host.Outcome State Fault Refusal :=
  .next (s.onChip (·.characterReceived data parity stop))

/-- ANSWER_TIMER_EXPIRY (R164). -/
def execAnswerTimerExpiry (s : State) : Host.Outcome State Fault Refusal :=
  .next (s.onChip (·.answerTimeout))

/-- SETTLE_END (R165). -/
def execSettleEnd (input : InputId) (s : State) : Host.Outcome State Fault Refusal :=
  .next (s.onChip (·.settleEnd input))

end Sys2Proof.Machine
end

