-- ==== Sys2Proof/Machine/Copy.lean ====
section
/-! DEFINITION. The arrival of a burst: check, class, forwarding, the blocks that take a copy, and the cadence step
(R20, R23, R24, R32 to R37, R51, R52, R57, R73). -/

namespace Sys2Proof.Machine

/-! ## The cadence step (R52, R57) -/

/-- The Cadence Unit's part of a step onto a copy of period `n` at port `p` (R51, R52). The stepping copy counts as the period's
reference event (log entry 20). An open decision is closed: by R55 where RELOCK armed the step, and from FREE, where no rule says so,
by the model's choice (DESIGN CHOICE, log entry 56). -/
def Cadence.stepTo (p : Port) (n : Period) (x : Cadence) : Cadence :=
  { x with
    period := n
    decisionOpen := false
    pathAge := PerPort.put ⟨none, none⟩ p (some 0)
    lockCount := 1
    silence := 0
    holdover := none
    stepArmed := false
    settled := Vector.replicate 8 ⟨none, none⟩
    refLog := [{ port := p, period := n, age := 0, judged := .within }]
    tickMove := 0 }

/-- Both send banks are discarded at a step to period `n` (R114). -/
def TapUnit.stepTo (d : Nat) (n : Period) (t : TapUnit) : TapUnit :=
  let k := blockOf d n
  let half : Fin 2 := Fin.ofNat 2 k
  { t with
    banks := ((Vector.replicate 2 (clearedBank (blockOf d (n + BitVec.ofNat 32 d)))).set half (clearedBank k))
    frozen := half
    taps := t.taps.map (fun x => { x with lateMark := false }) }

/-- The state effects of a step to period `n` at port `p` in every block (R20, R36, R52, R57, R73, R90, R114, R118, R141, R155,
R165). -/
def Chip.stepBlocks (p : Port) (n : Period) (c : Chip) : Chip :=
  let o := c.cad.period
  let c1 := (c.onCad (·.stepTo p n)).setCadence .locking
  let c2 : Chip := { c1 with rng := { c1.rng with idClash := none } }
  let c3 := (c2.planStep n).onSel (·.stepTo n)
  let c4 : Chip :=
    { c3 with
      msg := { c3.msg with lastTaken := Vector.replicate 8 none }
      pre := c3.pre.shift o n
      ret := c3.ret.stepTo
      tap := c3.tap.stepTo c3.cfg.blockLen n }
  c4.restartHandover c4.sel.next

/-- The cadence step (R52), `elapsed` age units after the tick of the period that it ends: the arrival counts as one tick, every
block takes the effects of the step, and the step tick builds its burst, files the own row and presents. It is no block boundary
(R107). The P advice of the step tick is computed from the maximum ages as they stand before the step clears them, the stepping
copy's among them; R71 and R73 give no order (DESIGN CHOICE, log entry 31). -/
def Chip.cadenceStep (p : Port) (elapsed : Nat) (n : Period) (c : Chip) : Chip :=
  let quietOver := c.rng.joinQuiet == 192
  ((((c.countTick elapsed).stepBlocks p n).dueFirst).sendSide quietOver).presentTick

/-! ## The blocks that take a copy (R34) -/

/-- A copy of origin `o` is a reference copy (R42). -/
def Cadence.follows (x : Cadence) (o : NodeId) : Bool := x.role = .follower && x.ref = some o

/-- What the Cadence Unit takes of a copy (R42, R46, R58): the rank, the reference copy, the settled age. A loss of reference due
at the tick before is taken before the copy is judged (R45), but after an election that the copy itself makes, by its rank here or by
the join or leave of its origin before (DESIGN CHOICE, log entry 6). Before a step every step still due is taken, and the copy is
judged by what they leave.
The settled age is recorded under the cadence state that the copy itself has led to, which R58 does not say (DESIGN CHOICE, log
entry 50). -/
def Chip.cadenceCopy (p : Port) (elapsed : Nat) (age : Int) (b : Burst) (c : Chip) : Chip :=
  let c1 := (c.noteRank b.origin b.cadence.rank).referenceLost
  let c2 := if c1.cad.follows b.origin && c1.cad.stepsOnCopy then c1.settleDue elapsed else c1
  let c3 :=
    if c2.cad.follows b.origin then
      if c2.cad.stepsOnCopy then c2.cadenceStep p elapsed b.period else c2.referenceCopy p b.period age
    else c2
  c3.settleAge p age b

/-- A peer burst handed on (R34): the Burst Selector brings the roster up to date and takes the copy, then the Cadence Unit, the
Plan Store and the Message Unit take theirs. R34 gives the blocks no order among themselves, and R186 lets the event of any of them be
queued first (DESIGN CHOICE, log entry 59). -/
def Chip.takeCopy (p : Port) (elapsed : Nat) (b : Burst) (c : Chip) : Chip :=
  let age := ageOf c.cad.period b.period elapsed
  let c1 := c.rosterCopy b
  let k := c1.sel.classOf b.period age
  let c2 := c1.onSel (·.takeCopy p age b k)
  let c3 := c2.cadenceCopy p elapsed age b
  ((c3.takeFragment b).checkMismatch b (k = .outside)).messageCopy b

/-! ## Arrival (R23, R24, R32, R33, R36) -/

/-- Forward a peer burst out of the other port with its hop count raised by one (R33). -/
def Chip.forward (p : Port) (b : Burst) (c : Chip) : Chip :=
  if b.hop.val < 7 then c.handOver (otherPort p) { burst := { b with hop := b.hop + 1 }, forwarded := true } else c

/-- A burst of another unit with this node's id (R36). -/
def Chip.idClash (p : Port) (b : Burst) (c : Chip) : Chip :=
  if quiet96 c.rng.idClash c.cad.period then
    Chip.post .idClash (portCode p) b.serial { c with rng := { c.rng with idClash := some c.cad.period } }
  else c

/-- A good-check burst at a port in UP, sorted by its class (R32). A peer burst is forwarded first and then handed on; R32 says
that neither waits for the other (DESIGN CHOICE, log entry 49). -/
def Chip.goodBurst (p : Port) (elapsed : Nat) (b : Burst) (c : Chip) : Chip :=
  let c1 := c.onPort p (fun s => { s with nGood := s.nGood + 1 })
  if b.origin = c.self then
    if b.serial = c.cfg.serial then c1.lapReturn p (ageOf c.cad.period b.period elapsed) else c1.idClash p b
  else (c1.forward p b).takeCopy p elapsed b

/-- BURST_ARRIVAL (R3, R23, R24, R25, R32): a burst with its received check word arrives whole, `elapsed` whole age units after the
tick of the present period. -/
def Chip.burstArrival (p : Port) (elapsed : Nat) (b : Burst) (check : Word) (c : Chip) : Chip :=
  match (c.portOf p).rx with
  | .dark => c
  | .quarantine => c
  | .acquire => c.acquireBurst p (goodCheck b check)
  | .up => if goodCheck b check then c.goodBurst p elapsed b else c.badBurst p

end Sys2Proof.Machine
end

