-- ==== Sys2Proof/Machine/RingEvents.lean ====
section
/-! DEFINITION. Meanings of the events of the ring: light, bursts, the word clock, port expiries, reference loss, holdover, roster, path and lap
silences. -/

namespace Sys2Proof.Machine

/-- LIGHT_ARRIVAL (R22). -/
def execLightArrival (port : Port) (s : State) : Host.Outcome State Fault Refusal :=
  .next (s.onChip (·.lightArrival port))

/-- LIGHT_LOSS (R22). -/
def execLightLoss (port : Port) (s : State) : Host.Outcome State Fault Refusal :=
  .next (s.onChip (·.lightLoss port))

/-- BURST_ARRIVAL (R23, R24, R32). -/
def execBurstArrival (port : Port) (elapsed : Nat) (burst : Burst) (check : Word) (s : State) : Host.Outcome State Fault Refusal :=
  .next (s.onChip (·.burstArrival port elapsed burst check))

/-- WCK_EDGE (R44, R55). -/
def execWckEdge (phase : Int) (s : State) : Host.Outcome State Fault Refusal :=
  .next (s.onChip (·.wckEdge phase))

/-- BURST_SENT (R27, R28, R33). -/
def execBurstSent (port : Port) (s : State) : Host.Outcome State Fault Refusal :=
  .next (s.onChip (·.onPort port (·.burstSent)))

/-- ACQUIRE_FAILED (R23). -/
def execAcquireFailed (port : Port) (s : State) : Host.Outcome State Fault Refusal :=
  .next (s.onChip (·.acquireFailed port))

/-- WINDOW_END (R24). -/
def execWindowEnd (port : Port) (s : State) : Host.Outcome State Fault Refusal :=
  .next (s.onChip (·.windowEnd port))

/-- QUARANTINE_END (R25). -/
def execQuarantineEnd (port : Port) (s : State) : Host.Outcome State Fault Refusal :=
  .next (s.onChip (·.quarantineEnd port))

/-- DRILL_END (R30). -/
def execDrillEnd (port : Port) (s : State) : Host.Outcome State Fault Refusal :=
  .next (s.onChip (·.drillEnd port))

/-- REFERENCE_LOST (R45, R51, R53). -/
def execReferenceLost (s : State) : Host.Outcome State Fault Refusal :=
  .next (s.onChip (·.referenceLost))

/-- HOLDOVER_EXPIRY (R53, R54). -/
def execHoldoverExpiry (s : State) : Host.Outcome State Fault Refusal :=
  .next (s.onChip (·.holdoverExpiry))

/-- ROSTER_LEAVE (R75, R99). -/
def execRosterLeave (origin : NodeId) (s : State) : Host.Outcome State Fault Refusal :=
  .next (s.onChip (·.rosterLeave origin))

/-- PATH_SILENCE_END (R77). -/
def execPathSilenceEnd (origin : NodeId) (port : Port) (s : State) : Host.Outcome State Fault Refusal :=
  .next (s.onChip (·.onSel (·.pathSilenceEnd origin port)))

/-- LAP_SILENCE_END (R78). -/
def execLapSilenceEnd (port : Port) (s : State) : Host.Outcome State Fault Refusal :=
  .next (s.onChip (·.lapSilenceEnd port))

end Sys2Proof.Machine
end

