-- ==== Sys2Proof/Machine/StartUp.lean ====
section
/-! DEFINITION. Meanings of the start-up commands: POWER_ON, RESET_PIN, RESET_RELEASE, CONFIG_LOAD. -/

namespace Sys2Proof.Machine

/-- POWER_ON (R190): power comes up with the straps at the levels `straps`. -/
def execPowerOn (straps : Fin 16) (s : State) : Host.Outcome State Fault Refusal :=
  .next { s with straps := straps, chip := s.chip.powerOn straps }

/-- RESET_PIN (R190): RESET is asserted with the straps at the levels `straps`. -/
def execResetPin (straps : Fin 16) (s : State) : Host.Outcome State Fault Refusal :=
  .next { s with straps := straps, chip := s.chip.resetPin straps }

/-- RESET_RELEASE (R190): loading begins. -/
def execResetRelease (s : State) : Host.Outcome State Fault Refusal :=
  .next (s.onChip (·.resetRelease))

/-- CONFIG_LOAD (R191 to R194): the image is read, checked, and placed or refused; RUN or HALTED begins. -/
def execConfigLoad (bytes : List Byte) (image : Image) (s : State) : Host.Outcome State Fault Refusal :=
  .next (s.onChip (·.configLoad bytes image))

end Sys2Proof.Machine
end

