-- ==== Sys2Proof/Machine/TickEvents.lean ====
section
/-! DEFINITION. Meanings of the tick and of the steps that fall at a tick: TICK, PRESENTATION_DELAY_CHANGE, BLOCK_STROBE_END, JOIN_QUIET_END, ADOPTION,
ASSEMBLY_EXPIRY, HOLD_END. -/

namespace Sys2Proof.Machine

/-- TICK (R40). -/
def execTick (s : State) : Host.Outcome State Fault Refusal :=
  .next (s.onChip (·.tick))

/-- PRESENTATION_DELAY_CHANGE (R69, R70). -/
def execPresentationDelayChange (s : State) : Host.Outcome State Fault Refusal :=
  .next (s.onChip (·.delayChange))

/-- BLOCK_STROBE_END (R108). -/
def execBlockStrobeEnd (s : State) : Host.Outcome State Fault Refusal :=
  .next (s.onChip (fun c => { c with tap := c.tap.strobeEnd c.span }))

/-- JOIN_QUIET_END (R31, R46). -/
def execJoinQuietEnd (s : State) : Host.Outcome State Fault Refusal :=
  .next (s.onChip (·.joinQuietEnd))

/-- ADOPTION (R17). -/
def execAdoption (s : State) : Host.Outcome State Fault Refusal :=
  .next (s.onChip (·.adopt))

/-- ASSEMBLY_EXPIRY (R18). -/
def execAssemblyExpiry (s : State) : Host.Outcome State Fault Refusal :=
  .next (s.onChip (·.expireAssembly))

/-- HOLD_END (R147). -/
def execHoldEnd (entry : Fin 4) (s : State) : Host.Outcome State Fault Refusal :=
  .next (s.onChip (·.holdEnd entry))

end Sys2Proof.Machine
end

