-- ==== Sys2Proof/Machine/Dispatch.lean ====
section
/-! DEFINITION. The dispatch of a command to its meaning: one arm per constructor of `Instr`. -/

namespace Sys2Proof.Machine

def exec (i : Instr) (s : State) : Host.Outcome State Fault Refusal :=
  match i with
  | .powerOn straps => Sys2Proof.Machine.execPowerOn straps s
  | .resetPin straps => Sys2Proof.Machine.execResetPin straps s
  | .resetRelease => Sys2Proof.Machine.execResetRelease s
  | .configLoad bytes image => Sys2Proof.Machine.execConfigLoad bytes image s
  | .tick => Sys2Proof.Machine.execTick s
  | .presentationDelayChange => Sys2Proof.Machine.execPresentationDelayChange s
  | .blockStrobeEnd => Sys2Proof.Machine.execBlockStrobeEnd s
  | .joinQuietEnd => Sys2Proof.Machine.execJoinQuietEnd s
  | .lightArrival port => Sys2Proof.Machine.execLightArrival port s
  | .lightLoss port => Sys2Proof.Machine.execLightLoss port s
  | .burstArrival port elapsed burst check => Sys2Proof.Machine.execBurstArrival port elapsed burst check s
  | .wckEdge phase => Sys2Proof.Machine.execWckEdge phase s
  | .burstSent port => Sys2Proof.Machine.execBurstSent port s
  | .acquireFailed port => Sys2Proof.Machine.execAcquireFailed port s
  | .windowEnd port => Sys2Proof.Machine.execWindowEnd port s
  | .quarantineEnd port => Sys2Proof.Machine.execQuarantineEnd port s
  | .drillEnd port => Sys2Proof.Machine.execDrillEnd port s
  | .referenceLost => Sys2Proof.Machine.execReferenceLost s
  | .holdoverExpiry => Sys2Proof.Machine.execHoldoverExpiry s
  | .rosterLeave origin => Sys2Proof.Machine.execRosterLeave origin s
  | .pathSilenceEnd origin port => Sys2Proof.Machine.execPathSilenceEnd origin port s
  | .lapSilenceEnd port => Sys2Proof.Machine.execLapSilenceEnd port s
  | .deadlineReached entry => Sys2Proof.Machine.execDeadlineReached entry s
  | .backoffExpired entry => Sys2Proof.Machine.execBackoffExpired entry s
  | .adoption => Sys2Proof.Machine.execAdoption s
  | .assemblyExpiry => Sys2Proof.Machine.execAssemblyExpiry s
  | .holdEnd entry => Sys2Proof.Machine.execHoldEnd entry s
  | .transactionStart => Sys2Proof.Machine.execTransactionStart s
  | .stepCharacterSent => Sys2Proof.Machine.execStepCharacterSent s
  | .characterReceived data parity stop => Sys2Proof.Machine.execCharacterReceived data parity stop s
  | .answerTimerExpiry => Sys2Proof.Machine.execAnswerTimerExpiry s
  | .settleEnd input => Sys2Proof.Machine.execSettleEnd input s
  | .memoryWrite addr data enables => Sys2Proof.Machine.execMemoryWrite addr data enables s
  | .sendTapWrite addr data => Sys2Proof.Machine.execSendTapWrite addr data s
  | .argumentWrite cell word data enables => Sys2Proof.Machine.execArgumentWrite cell word data enables s
  | .eventHeadRead => Sys2Proof.Machine.execEventHeadRead s
  | .codeZero cell tag spare => Sys2Proof.Machine.execCodeZero cell tag spare s
  | .unknownOrder cell tag spare code => Sys2Proof.Machine.execUnknownOrder cell tag spare code s
  | .trim cell tag spare => Sys2Proof.Machine.execTrim cell tag spare s
  | .want cell tag spare => Sys2Proof.Machine.execWant cell tag spare s
  | .seek cell tag spare => Sys2Proof.Machine.execSeek cell tag spare s
  | .release cell tag spare => Sys2Proof.Machine.execRelease cell tag spare s
  | .bind cell tag spare => Sys2Proof.Machine.execBind cell tag spare s
  | .talk cell tag spare => Sys2Proof.Machine.execTalk cell tag spare s
  | .talkset cell tag spare => Sys2Proof.Machine.execTalkset cell tag spare s
  | .talkbind cell tag spare => Sys2Proof.Machine.execTalkbind cell tag spare s
  | .loss cell tag spare => Sys2Proof.Machine.execLoss cell tag spare s
  | .step cell tag spare => Sys2Proof.Machine.execStep cell tag spare s
  | .unclaim cell tag spare => Sys2Proof.Machine.execUnclaim cell tag spare s
  | .allot cell tag spare => Sys2Proof.Machine.execAllot cell tag spare s
  | .announce cell tag spare => Sys2Proof.Machine.execAnnounce cell tag spare s
  | .present cell tag spare => Sys2Proof.Machine.execPresent cell tag spare s
  | .drill cell tag spare => Sys2Proof.Machine.execDrill cell tag spare s
  | .relock cell tag spare => Sys2Proof.Machine.execRelock cell tag spare s
  | .clearages cell tag spare => Sys2Proof.Machine.execClearages cell tag spare s
  | .restart cell tag write => Sys2Proof.Machine.execRestart cell tag write s

end Sys2Proof.Machine
end

