-- ==== Sys2Proof/Machine/Step.lean ====
section
/-! DEFINITION. One step of the machine: the command at the front of the queue is taken with the queue's rest; on an empty queue
the block idles. -/

namespace Sys2Proof.Machine

/-- Take the command at the front of the queue; with no command waiting nothing happens (the table has a row for every tick, so an
idle step is no tick; log entry 1). -/
def step (s : State) : Host.Outcome State Fault Refusal :=
  match s.pending with
  | [] => .next s
  | i :: rest => exec i { s with pending := rest }

/-- The state with the command that the table's bits spell put at the front of its queue; no number spells one. -/
def State.withFetchWord (s : State) (nbits w : Nat) : State :=
  match decodeTableWord nbits w with
  | some i => { s with pending := i :: s.pending }
  | none => s

end Sys2Proof.Machine
end

