-- ==== Sys2Proof/Machine/Reports.lean ====
section
/-! DEFINITION. What the host reads: the report words (R38, R80, R117, R120, R143, R179, R180, R189, R196 to R199), and every
read of the bus (R101, R102, R117). -/

namespace Sys2Proof.Machine

/-! ## Building a word -/

/-- A field of a report word: its lowest bit, its width and its value. -/
structure BitField where
  low   : Nat
  width : Nat
  value : Nat
deriving DecidableEq, Repr

/-- The word whose named fields hold their values and whose other bits are 0 (R189). -/
def packWord (fs : List BitField) : Word :=
  BitVec.ofNat 32 ((fs.map (fun f => f.value % 2 ^ f.width * 2 ^ f.low)).sum)

/-- A mark as a bit. -/
def bitOf (b : Bool) : Nat := if b then 1 else 0

/-- The word that stands for none (R198). -/
def noneWord : Word := 0xFFFFFFFF#32

/-- An age, signed, or the word for none (R198). -/
def ageWord (a : Option Int) : Word := (a.map wordOfInt).getD noneWord

/-! ## The summary (R198) -/

/-- The roster set: bit i for node i (R198). -/
def Chip.rosterSet (c : Chip) : Nat :=
  ((List.finRange 8).map (fun n => if c.isMember n then 2 ^ n.val else 0)).sum

/-- The staged plan's version, or 0 for none (R198). -/
def PlanStore.stagedVersion (s : PlanStore) : Nat := (s.staged.map (·.plan.version.toNat)).getD 0

/-- Word `k` of the summary (R198). Word 7 reads 0 while no staged plan is held; R198 gives no value for that (DESIGN CHOICE, log entry
36). -/
def Chip.summaryWord (c : Chip) (k : Nat) : Word :=
  match k with
  | 0 => packWord [⟨0, 2, modeCode c.sys.mode⟩, ⟨2, 2, causeCode c.sys.cause⟩, ⟨4, 3, c.cfg.nodeId.val⟩,
      ⟨8, 4, faultCode c.sys.loadFault⟩, ⟨12, 4, c.sys.strapBase.val⟩]
  | 1 => c.cad.period
  | 2 => packWord [⟨0, 1, bitOf (c.cad.role = .timing)⟩, ⟨1, 3, cadenceCode c.cad.state⟩, ⟨4, 4, nodeCode c.cad.ref⟩,
      ⟨8, 2, ringCode c.sel.ring⟩, ⟨16, 8, c.rosterSet⟩]
  | 3 => c.sel.epoch
  | 4 => packWord [⟨0, 16, c.pln.current.version.toNat⟩, ⟨16, 16, (c.pln.prior.map (·.version.toNat)).getD 0⟩]
  | 5 => c.pln.adopted
  | 6 => packWord [⟨0, 16, c.pln.stagedVersion⟩, ⟨16, 1, bitOf c.pln.announced⟩,
      ⟨17, 1, bitOf (c.pln.announcing c.cad.period)⟩]
  | 7 => (c.pln.staged.map (·.e)).getD 0
  | 8 => packWord [⟨0, 5, c.sel.delay⟩, ⟨5, 5, c.sel.pending.getD 0⟩, ⟨10, 5, c.sel.advice⟩, ⟨16, 3, c.tap.j⟩,
      ⟨24, 6, c.cfg.blockLen⟩]
  | 9 => (c.tap.shown[0].map wordOf).getD noneWord
  | 10 => (c.tap.shown[1].map wordOf).getD noneWord
  | 11 => packWord [⟨0, 6, c.ord.events.length⟩, ⟨6, 1, bitOf c.ord.overflow⟩, ⟨7, 1, bitOf c.attn⟩]
  | 12 => c.cfg.serial
  | 13 => packWord [⟨0, 1, bitOf c.cfg.rate96⟩, ⟨1, 1, bitOf (c.cfg.source = .wck)⟩, ⟨4, 3, c.cfg.authority.val⟩,
      ⟨8, 7, c.cfg.preampCount⟩]
  | _ => 0

/-! ## Cells, events, taps (R196, R197, R198) -/

/-- The two result words of a cell (R196). -/
def OrderCell.resultWord (x : OrderCell) (second : Bool) : Word :=
  if second then x.value
  else packWord [⟨0, 2, cellCode x.state⟩, ⟨2, 1, bitOf x.overrun⟩, ⟨3, 5, reasonCode x.reason⟩, ⟨8, 8, x.code.toNat⟩,
    ⟨16, 16, x.tag.toNat⟩]

/-- The event head word and the latch words (R187, R197). -/
def OrderUnit.eventWord (o : OrderUnit) (k : Nat) : Word :=
  match k with
  | 0 => o.readHead.1
  | 1 => o.latchPeriod
  | 2 => o.latchValue
  | _ => 0

/-- A tap's late count and underrun count; 0 for a RETURN tap or an absent one (R198). -/
def TapUnit.countWord (t : TapUnit) (k : Nat) : Word :=
  match t.taps[k / 2]? with
  | some x => if x.kind = .send then (if k % 2 = 0 then x.lateCount else x.underrun) else 0
  | none => 0

/-! ## The port pages (R38, R199) -/

/-- The acquire or quarantine timer that runs (R38). -/
def PortState.timer (s : PortState) : Nat := (s.acquireTimer.getD (s.quarTimer.getD 0))

/-- Word `k` of a port page (R199). -/
def PortState.pageWord (s : PortState) (k : Nat) : Word :=
  match k with
  | 0 => packWord [⟨0, 2, rxCode s.rx⟩, ⟨2, 1, bitOf s.light⟩, ⟨4, 2, txCode s.txMode⟩, ⟨8, 5, s.goodRun⟩,
      ⟨16, 6, s.windowTicks⟩]
  | 1 => wordOf s.timer
  | 2 => wordOf s.windowBad
  | 3 => wordOf s.drill
  | 4 => s.nGood
  | 5 => s.nBad
  | 6 => s.nForwarded
  | 7 => s.nDropped
  | 8 => s.nLap
  | 9 => s.nQuarantine
  | _ => 0

/-! ## The origin pages (R80, R199) -/

/-- Word 0 of a peer's origin page (R199). The bits of the cadence report and of the port report, the reference id among them, read 0
while no report is held; R199 gives no value for that (DESIGN CHOICE, log entry 36). -/
def OriginRecord.stateWord (x : OriginRecord) : Word :=
  let cad : List BitField :=
    match x.cadence with
    | some r => [⟨2, 1, 1⟩, ⟨4, 3, cadenceCode r.state⟩, ⟨7, 1, bitOf (r.role = .timing)⟩, ⟨8, 4, nodeCode r.ref⟩,
        ⟨12, 4, r.rank.val⟩, ⟨16, 1, bitOf r.unsync⟩]
    | none => []
  let rx : List BitField :=
    match x.ports with
    | some p => [⟨18, 2, rxCode p.east⟩, ⟨20, 2, rxCode p.west⟩]
    | none => []
  packWord ([⟨0, 1, bitOf x.member⟩, ⟨1, 1, bitOf x.present⟩] ++ cad ++ rx)

/-- A path's five words: last age, maximum age, copies, late, hop distance (R199). -/
def PathRecord.pageWord (x : PathRecord) (k : Nat) : Word :=
  match k with
  | 0 => ageWord x.lastAge
  | 1 => ageWord x.maxAge
  | 2 => x.copies
  | 3 => x.late
  | 4 => wordOf (x.hop.getD 0)
  | _ => 0

/-- Word `k` of a peer's origin page (R199). -/
def Selector.peerWord (s : Selector) (o : NodeId) (k : Nat) : Word :=
  match k with
  | 0 => s.origins[o].stateWord
  | 1 => s.origins[o].serial
  | 2 => s.origins[o].missing
  | 3 => s.origins[o].outside
  | _ => if k < 9 then s.paths[o].east.pageWord (k - 4) else s.paths[o].west.pageWord (k - 9)

/-- Word `k` of this node's own origin page (R199). -/
def Chip.ownPageWord (c : Chip) (k : Nat) : Word :=
  match k with
  | 0 => packWord [⟨0, 1, 1⟩, ⟨18, 2, rxCode c.rng.port.east.rx⟩, ⟨20, 2, rxCode c.rng.port.west.rx⟩]
  | 1 => c.cfg.serial
  | 2 => packWord [⟨0, 8, c.sel.lap.east.silence⟩, ⟨8, 8, c.sel.lap.west.silence⟩]
  | 4 => ageWord c.sel.lap.east.lastAge
  | 5 => ageWord c.sel.lap.east.maxAge
  | 9 => ageWord c.sel.lap.west.lastAge
  | 10 => ageWord c.sel.lap.west.maxAge
  | _ => 0

/-- Word `k` of the origin page of node `o` (R199). -/
def Chip.originWord (c : Chip) (o : NodeId) (k : Nat) : Word :=
  if o = c.self then c.ownPageWord k else c.sel.peerWord o k

/-! ## Plans, records, preamps (R199) -/

/-- Entry `k` of the plan pages: current, staged, draft (R199). -/
def PlanStore.pageWord (s : PlanStore) (k : Nat) : Word :=
  if k < 16 then planWord s.current.allots[k]?
  else if k < 32 then planWord (s.staged.bind (fun st => st.plan.allots[k - 16]?))
  else planWord ((s.draft[k - 32]?).bind id)

/-- A record word (R143, R199). -/
def Record.reportWord (x : Record) : Word :=
  packWord [⟨10, 22, x.main.value / 8⟩, ⟨8, 2, claimCode x.claim⟩, ⟨7, 1, bitOf x.present⟩, ⟨6, 1, bitOf x.limited⟩,
    ⟨0, 6, stepCode x.aLast⟩]

/-- The state code of a preamp input: absent at or above the count (R179, R199). -/
def Chip.inputStateCode (c : Chip) (i : InputId) : Nat :=
  if i.val < c.cfg.preampCount then inputCode c.pre.inputs[i].state else 3

/-- A preamp word (R179, R199). -/
def Chip.preampWord (c : Chip) (i : InputId) : Word :=
  let x := c.pre.inputs[i]
  packWord [⟨0, 6, stepCode x.confirmed⟩, ⟨6, 6, stepCode x.stamp⟩, ⟨12, 2, c.inputStateCode i⟩,
    ⟨14, 4, nodeCode x.claimant⟩, ⟨18, 4, requesterCode x.requester⟩, ⟨22, 1, bitOf (c.pre.queued i)⟩]

/-! ## The report window (R180, R189) -/

/-- The cell that result word `k` (0 to 7) belongs to. -/
def resultCell (k : Nat) : CellId := Fin.ofNat 4 (k / 2)

/-- Report word `w` (0 to 511) as the state of its owners gives it (R189). -/
def Chip.pageWord (c : Chip) (w : Nat) : Word :=
  if w < 32 then c.summaryWord w
  else if w < 40 then (c.cellAt (resultCell (w - 32))).resultWord (w % 2 == 1)
  else if w < 43 then c.ord.eventWord (w - 40)
  else if w < 48 then 0
  else if w < 72 then c.tap.countWord (w - 48)
  else if w < 84 then c.rng.port.east.pageWord (w - 72)
  else if w < 96 then c.rng.port.west.pageWord (w - 84)
  else if w < 224 then c.originWord (Fin.ofNat 8 ((w - 96) / 16)) ((w - 96) % 16)
  else if w < 272 then c.pln.pageWord (w - 224)
  else if w < 400 then (c.recordAt (Fin.ofNat 128 (w - 272))).reportWord
  else if w < 464 then c.preampWord (Fin.ofNat 64 (w - 400))
  else 0

/-- A read of report word `w` in the mode of the part (R180): in LOADING the summary as it stands and 0 elsewhere. -/
def Chip.reportWord (c : Chip) (w : Nat) : Word :=
  if c.sys.mode = .loading ∧ 32 ≤ w then 0 else c.pageWord w

/-! ## Reads of the bus (R101, R102, R117) -/

/-- The receive bank entry that a word of RETURN tap `k` names, where its half shows a block (R117). -/
def Chip.returnEntry (c : Chip) (k : Nat) (pl : TapPlace) : Option (Justification × BankEntry) :=
  match c.tap.taps[k]?, c.tap.shown[pl.half] with
  | some t, some b =>
    let bank := c.ret.banks[Fin.ofNat 8 b]
    (recordOf (t.first + pl.chan)).map (fun r => (t.just, (bank[pl.frame])[r]))
  | _, _ => none

/-- What a host read of word `addr` returns (R101, R102, R117). -/
def State.hostRead (s : State) (addr : Nat) : Word :=
  match s.chip.area addr with
  | .report w => s.chip.reportWord w
  | .returnTap k pl =>
    match s.chip.returnEntry k pl with
    | some (j, .output x tag) => returnWord j x tag
    | _ => memWord s.mem addr
  | _ => memWord s.mem addr

end Sys2Proof.Machine
end

