-- ==== Sys2Proof/WellFormed.lean ====
section
/-! DEFINITION. Well-formedness of a command: the ranges the manual gives an operand that its Lean type does not already
enforce. -/

namespace Sys2Proof

/-- The step of a GAIN body is 0 to 60 (R83). -/
def MsgBody.wf : MsgBody → Bool
  | .gain _ step => step.val ≤ 60
  | _ => true

/-- An aux field is well formed when the message it carries is. -/
def Aux.wf : Aux → Bool
  | .message m => m.body.wf
  | _ => true

/-- A burst has 0 to 96 slots (R2) and a well-formed aux field. -/
def Burst.wf (b : Burst) : Bool :=
  b.slots.length ≤ 96 && b.aux.wf

/-- An order code that names no order and is not 0 (R182 and the order set of chapter 10.3). -/
def codeUnnamed (code : Byte) : Bool :=
  18 < code.toNat

/-- Well-formedness of a command. A burst arrives less than two periods after the tick of the present period (R40, R45: a
tick is moved by at most half a period), a word-clock edge lies −32 to +31 age units from the nearest tick (R44), and an
UNKNOWN_ORDER carries a code that names no order. -/
def Instr.wf : Instr → Bool
  | .burstArrival _ elapsed b _ => elapsed < 128 && b.wf
  | .wckEdge phase => -32 ≤ phase && phase ≤ 31
  | .unknownOrder _ _ _ code => codeUnnamed code
  | _ => true

end Sys2Proof
end

