-- ==== Sys2Proof/Safety.lean ====
section
/-! DEFINITION. What counts as a safe run, and the invariants and conditions in whose terms the statements are made. -/

namespace Sys2Proof.Machine

/-- A run is safe at a state when every command has a next state there: the manual stops the part on no command. -/
def State.safe (s : State) : Prop := ∀ i : Instr, ∃ t : State, exec i s = .next t

/-! ## Conditions on a state -/

/-- The part is in RUN and the cell is not RUNNING: an order written to the cell is taken (R182). -/
def Chip.takes (c : Chip) (i : CellId) : Prop := c.sys.mode = .run ∧ (c.cellAt i).state ≠ .running

/-- A cell after an order that completed at once (R181, R182): code and tag as written, overrun clear, no order in progress. -/
def OrderCell.ended (code : Byte) (tag : BitVec 16) (st : CellState) (r : Reason) (v : Word) (x : OrderCell) : OrderCell :=
  { state := st, code := code, tag := tag, reason := r, value := v, overrun := false, order := none, args := x.args }

/-- Cell `i` ends DONE with a value, everything else being as in `c`. -/
def Chip.endsDone (i : CellId) (code : Byte) (tag : BitVec 16) (v : Word) (c : Chip) : Chip :=
  c.onCell i (·.ended code tag .done .none v)

/-- Cell `i` ends FAILED with a reason and a value, everything else being as in `c`. -/
def Chip.endsFailed (i : CellId) (code : Byte) (tag : BitVec 16) (r : Reason) (v : Word) (c : Chip) : Chip :=
  c.onCell i (·.ended code tag .failed r v)

/-- Cell `i` ends FAILED with a reason for which no rule gives the value: the value is the next free one. -/
def Chip.endsRefused (i : CellId) (code : Byte) (tag : BitVec 16) (r : Reason) (c : Chip) : Chip :=
  Chip.endsFailed i code tag r (Config.failedValue c.ord.freeCount)
    { c with ord := { c.ord with freeCount := c.ord.freeCount + 1 } }

/-- Cell `i` stays RUNNING with its order in progress (R181); reason and value stay until the completion. -/
def Chip.staysRunning (i : CellId) (code : Byte) (tag : BitVec 16) (a : Vector Word 7) (w : WaitFor) (c : Chip) : Chip :=
  c.onCell i (fun x =>
    { x with state := .running, code := code, tag := tag, overrun := false, order := some (inProgress code a w) })

/-- The memory after a code word is written to a cell (R101, R196). -/
def State.codeMem (s : State) (i : CellId) (tag : BitVec 16) (spare code : Byte) : Memory :=
  memWrite s.mem (s.chip.cellWord i 0) (Machine.codeWord tag spare code) 15

/-- The code writes of the orders other than RESTART, with their codes (chapter 10.3). -/
def orderWrites (i : CellId) (tag : BitVec 16) (sp : Byte) : List (Byte × Instr) :=
  [(1, .trim i tag sp), (2, .want i tag sp), (3, .seek i tag sp), (4, .release i tag sp), (5, .bind i tag sp),
   (6, .talk i tag sp), (7, .talkset i tag sp), (8, .talkbind i tag sp), (9, .loss i tag sp), (10, .step i tag sp),
   (11, .unclaim i tag sp), (12, .allot i tag sp), (13, .announce i tag sp), (14, .present i tag sp), (15, .drill i tag sp),
   (16, .relock i tag sp), (17, .clearages i tag sp)]

/-- The number in the `width` bits of a word from bit `low` on. -/
def bits (w : Word) (low width : Nat) : Nat := (w.extractLsb' low width).toNat

/-- A word gives an age as R198 lays ages out: signed, or all ones for none. -/
def showsAge (w : Word) (a : Option Int) : Prop :=
  (a = none → w = 0xFFFFFFFF#32) ∧ ∀ x : Int, a = some x → w = BitVec.ofInt 32 x

/-- A word gives an entry of a plan as R199 lays plan words out: all zero for an empty one. -/
def showsAllotment (w : Word) (e : Option Allotment) : Prop :=
  (e = none → w = 0) ∧
  ∀ x : Allotment, e = some x → w.getLsbD 31 = true ∧ (x.first < 256 → bits w 0 8 = x.first) ∧
    (x.count < 512 → bits w 8 9 = x.count) ∧ bits w 18 2 = kindCode x.kind ∧ bits w 20 3 = x.owner.val

/-- The transmit queue of a port holds an own burst of the present period that was built and handed over (R9, R31). -/
def ownEntry (b : Burst) : TxEntry := { burst := b, forwarded := false }

/-- A burst arrives at port `p` in UP with a good check word. -/
def Chip.hearsGood (c : Chip) (p : Port) (b : Burst) (check : Word) : Prop :=
  (c.portOf p).rx = .up ∧ goodCheck b check = true

/-- A burst of a peer of the roster, with the serial and the rank recorded for it, at a part with no loss of reference due: taking
its copy changes neither the roster nor the election (R46, R62). -/
def Chip.knows (c : Chip) (b : Burst) : Prop :=
  b.origin ≠ c.cfg.nodeId ∧ (c.sel.origins[b.origin]).member = true ∧ (c.sel.origins[b.origin]).serial = b.serial ∧
    c.cad.rank[b.origin] = some b.cadence.rank ∧ c.lossDue = false

/-- A burst of a known peer that arrives good in UP, and is no reference copy. -/
def Chip.hearsPeer (c : Chip) (p : Port) (b : Burst) (check : Word) : Prop :=
  c.hearsGood p b check ∧ c.knows b ∧ c.cad.follows b.origin = false

/-- The age of a burst that arrives `elapsed` age units after the tick (R61). -/
def Chip.ageNow (c : Chip) (b : Burst) (elapsed : Nat) : Int := ageOf c.cad.period b.period elapsed

/-- A burst of the reference that arrives good in UP at a follower that does not step on it. -/
def Chip.hearsReference (c : Chip) (p : Port) (b : Burst) (check : Word) : Prop :=
  c.hearsGood p b check ∧ c.knows b ∧ c.cad.role = .follower ∧ c.cad.ref = some b.origin ∧ c.cad.state ≠ .free ∧
    c.cad.stepArmed = false

/-- The phase error of a copy of age `age` (R42): against its port's path age, or the age itself where no port has one. -/
def Cadence.errorIs (x : Cadence) (p : Port) (age err : Int) : Prop :=
  (∃ a : Int, x.pathAge.get p = some a ∧ err = age - a) ∨
    (x.pathAge.get p = none ∧ x.pathAge.get (otherPort p) = none ∧ err = age)

/-- A copy within pull-in of period `n` has been taken under the present reference (R42). -/
def Cadence.eventTaken (x : Cadence) (n : Period) : Prop := ∃ o ∈ x.refLog, o.judged = .within ∧ o.period = n

/-- The outbox entry that a message of an originator becomes at its entry (R85). -/
def newEntry (dest : NodeId) (body : MsgBody) (orig : Originator) : OutEntry :=
  { dest := dest, body := body, orig := orig }

/-- A message to `dest` is appended to the outbox: a peer of the roster, with room (R85). -/
def Chip.appends (c : Chip) (dest : NodeId) : Prop :=
  dest ≠ c.self ∧ c.isMember dest = true ∧ c.msg.outbox.length < 16

/-- An input of this node with its number (R157). -/
def Chip.existing (c : Chip) (i : InputId) : Prop := i.val < c.cfg.preampCount

/-- Node `n` is a candidate of the election with rank `r` (R46): a member of rank below 15, and this node only while election is open to
it. -/
def Chip.candidate (c : Chip) (n : NodeId) (r : Fin 16) : Prop :=
  c.cad.rank[n] = some r ∧ r.val < 15 ∧ (n = c.cfg.nodeId → c.cad.openToSelf = true) ∧
    (n ≠ c.cfg.nodeId → (c.sel.origins[n]).member = true)

/-! ## Invariants -/

/-- A position of a send bank that is not written holds sample 0, overload clear and key up (R4, R109). -/
def Chip.banksOk (c : Chip) : Prop :=
  ∀ (h : Fin 2) (f : Fin 32) (p : Fin 96), (((c.tap.banks[h]).frames[f])[p]).written = false →
    ((c.tap.banks[h]).frames[f])[p] = {}

/-- The queues keep within their sizes: the event queue (R186), the outbox (R82), the preamp queue (R159: at most 8 entries, and
at most one for an input), the transmit queues (R27). -/
def Chip.queuesOk (c : Chip) : Prop :=
  c.ord.events.length ≤ 32 ∧ c.msg.outbox.length ≤ 16 ∧ c.pre.queue.length ≤ 8 ∧
    (c.pre.queue.map (·.input)).Nodup ∧ ∀ p : Port, (c.portOf p).queue.length ≤ 16

/-- In RUN the presentation delay lies in 2 to 16, and a pending P does in every mode (R60, R69). -/
def Chip.delayOk (c : Chip) : Prop :=
  (c.sys.mode = .run → 2 ≤ c.sel.delay ∧ c.sel.delay ≤ 16) ∧ ∀ p : Nat, c.sel.pending = some p → 2 ≤ p ∧ p ≤ 16

/-- A ramp's multiplier and target lie in 0 to 16,777,216 (R123, R133). -/
def Ramp.ok (r : Ramp) : Prop := r.value ≤ 16777216 ∧ r.target ≤ 16777216

/-- A record's ramps lie in range, and its talk level in −144 to +48 (R123). -/
def Record.ok (x : Record) : Prop := x.main.ok ∧ x.talkRamp.ok ∧ -144 ≤ x.level ∧ x.level ≤ 48

/-- Every record's ramps and talk level lie in range (R123, R133). -/
def Chip.rampsOk (c : Chip) : Prop := ∀ r : RecordId, (c.recordAt r).ok

/-- Every claimant is a member of this node's roster (R167). Outside RUN no input has a claimant, and nothing waits that could make
one: no message in the outbox, no presentation held back, no port that takes bursts. -/
def Chip.claimsOk (c : Chip) : Prop :=
  (∀ (i : InputId) (d : NodeId), c.pre.inputs[i].claimant = some d → c.isMember d = true) ∧
  (c.sys.mode ≠ .run →
    (∀ i : InputId, c.pre.inputs[i].claimant = none) ∧ c.msg.outbox = [] ∧ c.sel.deferred = false ∧
      ∀ p : Port, (c.portOf p).rx = .dark)

end Sys2Proof.Machine
end

