-- ==== Sys2Proof/Certificates/Slice0/Obligations.lean ====
section
/-! DEFINITION. The statements for the provers: what the machine does on every row of the command table, what each command
leaves as it was, and the invariants that every step keeps. -/

open Sys2Proof Sys2Proof.Machine

/-- A step takes the command at the front of the queue and is that command's meaning on the queue's rest; on an empty queue
nothing happens (the idling is the model's choice, log entry 1). -/
def Obligations.StepTakesFront : Prop :=
  (∀ (i : Instr) (s : State), Sys2Proof.Machine.step { s with pending := i :: s.pending } = exec i s) ∧
  ∀ s : State, s.pending = [] → Sys2Proof.Machine.step s = .next s

/-- Every command has a next state in every state, and no command touches the commands that wait behind it. -/
def Obligations.NoCommandStops : Prop :=
  ∀ (i : Instr) (s : State), ∃ t : State, exec i s = .next t ∧ t.pending = s.pending

/-- The machine after power-on: every block at the reset values of R8, R21, R39, R60, R82, R103, R109, R115, R120, R123, R145, R157,
R172, R180, R181, R186, R188 and R190, the BLOCK output low (R108), both return halves showing nothing (R118). Items to which the
manual gives no value (log entry 28), and light present, which is as reported, are left out. -/
def Obligations.ResetHoldsSpecifiedValues : Prop :=
  let c := State.reset.chip
  State.reset.pending = [] ∧
  c.sys.mode = .loading ∧ c.sys.cause = .power ∧ c.sys.loadFault = none ∧
  (∀ p : Port, (c.portOf p).rx = .dark ∧ (c.portOf p).goodRun = 0 ∧ (c.portOf p).acquireTimer = none ∧
    (c.portOf p).windowTicks = 0 ∧ (c.portOf p).windowBad = 0 ∧ (c.portOf p).quarTimer = none ∧
    (c.portOf p).txMode = .normal ∧ (c.portOf p).drill = 0 ∧ (c.portOf p).queue = [] ∧ (c.portOf p).nGood = 0 ∧
    (c.portOf p).nBad = 0 ∧ (c.portOf p).nForwarded = 0 ∧ (c.portOf p).nDropped = 0 ∧ (c.portOf p).nLap = 0 ∧
    (c.portOf p).nQuarantine = 0) ∧
  c.rng.joinQuiet = 0 ∧ c.rng.idClash = none ∧
  c.cad.period = 0 ∧ c.cad.state = .free ∧ c.cad.role = .follower ∧ c.cad.ref = none ∧ c.cad.decisionOpen = false ∧
  c.cad.pathAge = ⟨none, none⟩ ∧ c.cad.lockCount = 0 ∧ c.cad.silence = 0 ∧ c.cad.holdover = none ∧
  c.cad.stepArmed = false ∧ c.cad.openToSelf = false ∧
  (∀ o : NodeId, o ≠ c.cfg.nodeId → c.cad.rank[o] = none) ∧ (∀ o : NodeId, c.cad.settled[o] = ⟨none, none⟩) ∧
  (∀ (o : NodeId) (k : Fin 32), ((c.sel.store[o])[k]).state = .empty) ∧
  c.sel.pending = none ∧ c.sel.epoch = 0 ∧ c.sel.ring = .alone ∧
  (∀ (o : NodeId) (p : Port), (c.sel.paths[o]).get p =
    { lastAge := none, maxAge := none, copies := 0, late := 0, hop := none, silence := 96 }) ∧
  (∀ o : NodeId, c.sel.origins[o] =
    { member := false, serial := 0, silence := 96, outside := 0, missing := 0, present := false, cadence := none,
      ports := none }) ∧
  (∀ p : Port, c.sel.lap.get p = { silence := 96, lastAge := none, maxAge := none }) ∧
  c.pln.prior = none ∧ c.pln.staged = none ∧ c.pln.repair = none ∧ (∀ k : Fin 16, c.pln.draft[k] = none) ∧
  c.pln.nextStaged = 0 ∧ c.pln.nextCurrent = 0 ∧ c.pln.asmStaged = none ∧ c.pln.asmCurrent = none ∧
  (∀ o : NodeId, c.pln.mismatch[o] = none) ∧
  c.msg.outbox = [] ∧ c.msg.answers = [] ∧
  (∀ o : NodeId, c.msg.toggle[o] = false ∧ c.msg.delivered[o] = none ∧ c.msg.lastTaken[o] = none) ∧
  (∀ r : RecordId, c.recordAt r =
    { binding := none, kind := none, last := none, trim := 0, want := none, claim := .none, seek := false, policy := .fade,
      fadeOut := 48, fadeIn := 96, mask := 0, level := 0, duck := 0, aLast := none,
      main := { value := 0, target := 0, step := 1, length := 1 },
      talkRamp := { value := 0, target := 0, step := 1, length := 1 }, heldSample := 0, present := false, ducked := false,
      limited := false, slotInput := none, claimDue := false }) ∧
  (∀ e : Fin 4, c.ret.talk[e] = { binding := none, state := .quiet, hold := none, owner := none, sample := 0 }) ∧
  c.ret.attack = 48 ∧ c.ret.release = 480 ∧ c.ret.hold = 2400 ∧
  (∀ (b : Fin 8) (f : Fin 32) (r : RecordId), ((c.ret.banks[b])[f])[r] = .pass) ∧
  (∀ i : InputId, c.pre.inputs[i] =
    { confirmed := none, stamp := none, pending := none, state := .ready, claimant := none, requester := none,
      sweep := false }) ∧
  c.pre.queue = [] ∧ c.pre.port = .idle ∧ c.pre.trans = none ∧
  (∀ i : CellId, c.cellAt i =
    { state := .idle, code := 0, tag := 0, reason := .none, value := 0, overrun := false, order := none,
      args := Vector.replicate 7 0 }) ∧
  c.ord.events = [{ kind := .config, period := 0, subject := 0, value := 0 }] ∧ c.ord.overflow = false ∧
  c.ord.latchPeriod = 0 ∧ c.ord.latchValue = 0 ∧ c.ord.attention = 0 ∧
  c.tap.taps = [] ∧ c.tap.strobe = none ∧ (∀ h : Fin 2, c.tap.shown[h] = none) ∧
  ∀ (h : Fin 2) (f : Fin 32) (k : Fin 96), ((c.tap.banks[h]).frames[f])[k] =
    { sample := 0, key := false, overload := false, written := false }

/-- The invariants of the model hold at reset. -/
def Obligations.InvariantsHoldAtReset : Prop :=
  Memory.wf State.reset.mem = true ∧ State.reset.chip.queuesOk ∧ State.reset.chip.delayOk ∧ State.reset.chip.banksOk ∧
    State.reset.chip.rampsOk ∧ State.reset.chip.claimsOk

/-! ## Start-up -/

/-- POWER_ON, and RESET_PIN of a part that is not held, make a full reset with their start cause: every block takes its reset
value, light present stays as reported, one CONFIG (reset) event is queued, and the part is held; the release begins the
loading. Four things here are the model's: the reset values of the items to which the manual gives none (log entry 28), that the
memory's bytes stay (log entry 38), that the commands that wait stay, and that the count of free values runs on (log entry 9). -/
def Obligations.ResetCommandsMakeFullReset : Prop :=
  (∀ (straps : Fin 16) (s : State), exec (.powerOn straps) s = .next
    { s with
      straps := straps
      chip :=
        { sys := { mode := .loading, cause := .power, load := .held, strapBase := straps }
          rng := { port := ⟨{ light := s.chip.rng.port.east.light }, { light := s.chip.rng.port.west.light }⟩ }
          ord := { events := [{ kind := .config, period := 0, subject := 0, value := 0 }]
                   freeCount := s.chip.ord.freeCount } } }) ∧
  (∀ (straps : Fin 16) (s : State), s.chip.sys.load ≠ .held → exec (.resetPin straps) s = .next
    { s with
      straps := straps
      chip :=
        { sys := { mode := .loading, cause := .pin, load := .held, strapBase := straps }
          rng := { port := ⟨{ light := s.chip.rng.port.east.light }, { light := s.chip.rng.port.west.light }⟩ }
          ord := { events := [{ kind := .config, period := 0, subject := 0, value := 1 }]
                   freeCount := s.chip.ord.freeCount } } }) ∧
  (∀ s : State, s.chip.sys.load = .held → exec .resetRelease s = .next
    (s.onChip (fun c => { c with sys := { c.sys with load := .reading } })))

/-- A load whose image fails a check enters HALTED: the fault is recorded, CONFIG (loaded) is queued with the fault code, and no
item is placed. A configuration memory that does not answer fails the FORMAT check. -/
def Obligations.BadImageHalts : Prop :=
  (∀ (bytes : List Byte) (m : Image) (f : LoadFault) (s : State),
    s.chip.sys.mode = .loading → s.chip.sys.load = .reading → loadCheck bytes m s.chip.windowBase = some f →
    exec (.configLoad bytes m) s = .next (s.onChip (fun c =>
      { c with
        sys := { c.sys with mode := .halted, load := .finished, loadFault := some f }
        ord := c.ord.post { kind := .config, period := 0, subject := 1, value := wordOf (faultCode f) } }))) ∧
  ∀ (m : Image) (w : Nat), loadCheck [] m w = some .format

/-- A load whose image passes every check enters RUN: the items are placed with their clamps, the settings of every record, the
bindings of the talk entries and the talk timings among them (of several items of one record or entry the last stands, and one that
the image does not list takes the values of R123 and R145); the first tick has begun period 0,
period −P has been presented, join quiet has begun, half 0 is FROZEN, BLOCK is high, nothing is handed over, and a port with light
is in ACQUIRE. That the first tick counts join quiet to 1 and leaves the acquire timer at 4,800 is the model's reading of which of
the tick and the entry comes first (log entry 30). -/
def Obligations.GoodImageEntersRun : Prop :=
  ∀ (bytes : List Byte) (m : Image) (s : State),
    s.chip.sys.mode = .loading → s.chip.sys.load = .reading → loadCheck bytes m s.chip.windowBase = none →
    ∃ t : State, exec (.configLoad bytes m) s = .next t ∧
      t.mem = s.mem ∧ t.straps = s.straps ∧ t.pending = s.pending ∧
      t.chip.sys = { s.chip.sys with mode := .run, load := .finished, loadFault := none } ∧
      t.chip.cfg = m.settings ∧ t.chip.pln.current = m.initialPlan ∧ t.chip.cad.period = s.chip.cad.period ∧
      t.chip.sel.delay = clampNat 2 16 m.delay ∧
      (s.chip.cad.period = 0 → t.chip.sel.next = 1 - BitVec.ofNat 32 (clampNat 2 16 m.delay)) ∧
      t.chip.rng.joinQuiet = min 192 (s.chip.rng.joinQuiet + 1) ∧
      t.chip.tap.taps = m.tapList ∧ t.chip.tap.frozen = 0 ∧ t.chip.tap.strobe = some (clampNat 1 255 m.blockWidth) ∧
      t.chip.tap.shown = Vector.replicate 2 none ∧ t.chip.tap.j = jOf (clampNat 2 16 m.delay) m.blockLen ∧
      t.chip.ord.attention = attentionOf m.attention ∧
      (∀ r : RecordId, (∀ x ∈ m.records, x.record ≠ r.val) →
        t.chip.recordAt r = { t.chip.recordAt r with
          binding := none, trim := 0, want := none, seek := false, policy := .fade, fadeOut := 48, fadeIn := 96, mask := 0
          level := 0, duck := 0 }) ∧
      (∀ (r : RecordId) (front back : List RecordItem) (x : RecordItem), m.records = front ++ x :: back → x.record = r.val →
        (∀ y ∈ back, y.record ≠ r.val) →
        (∀ k : Fin 256, x.binding = k.val → (t.chip.recordAt r).binding = some k) ∧
        (255 < x.binding → (t.chip.recordAt r).binding = none) ∧
        (x.want = 63 → (t.chip.recordAt r).want = none) ∧
        (x.want ≠ 63 → ∃ w : PreStep, (t.chip.recordAt r).want = some w ∧ w.val = min 60 x.want) ∧
        t.chip.recordAt r = { t.chip.recordAt r with
          trim := max (-144) (min 48 x.trim), seek := x.seek, policy := x.policy
          fadeOut := (max 1 (min 4800 x.fadeOut)).toNat, fadeIn := (max 1 (min 4800 x.fadeIn)).toNat
          mask := x.mask, level := max (-144) (min 48 x.level), duck := max (-120) (min 0 x.duck) }) ∧
      (∀ e : Fin 4, (∀ x ∈ m.talk, x.entry ≠ e.val) → t.chip.ret.talk[e].binding = none) ∧
      (∀ (e : Fin 4) (front back : List TalkItem) (x : TalkItem), m.talk = front ++ x :: back → x.entry = e.val →
        (∀ y ∈ back, y.entry ≠ e.val) →
        (∀ k : Fin 256, x.binding = k.val → t.chip.ret.talk[e].binding = some k) ∧
        (255 < x.binding → t.chip.ret.talk[e].binding = none)) ∧
      (m.talkAttack = none → t.chip.ret.attack = 48) ∧
      (∀ a : Int, m.talkAttack = some a → t.chip.ret.attack = (max 1 (min 4800 a)).toNat) ∧
      (m.talkRelease = none → t.chip.ret.release = 480) ∧
      (∀ r : Int, m.talkRelease = some r → t.chip.ret.release = (max 1 (min 4800 r)).toNat) ∧
      (m.talkHold = none → t.chip.ret.hold = 2400) ∧
      (∀ h : Int, m.talkHold = some h → t.chip.ret.hold = (max 0 (min 48000 h)).toNat) ∧
      ∀ p : Port, (s.chip.portOf p).rx = .dark → (s.chip.portOf p).light = true →
        (t.chip.portOf p).rx = .acquire ∧ (t.chip.portOf p).goodRun = 0 ∧
        (t.chip.portOf p).acquireTimer = some 4800

/-! ## The tick -/

/-- In RUN a TICK begins the period after the present one, counts join quiet, and uses up the displacement ordered for it;
configuration, mode, memory and straps stay. It makes the end of a staged assembly of E due exactly where the new period is E + 96.
Once join quiet was over before it, the own burst is built by the part as it stands then, whose present period is the new one, the
own row is filed and the return side follows (the burst before the evaluation by the model's choice, log entry 63); during join quiet no
burst is built. The filing makes the entry of the present period HELD with the own slots and the version of the plan in force, and
changes nothing else; what an own slot holds is OwnBurstIsBuiltAndQueued. Outside RUN there are no ticks. What a tick counts, over every
part: each port's timer, window and drill, join quiet, the silence count of a part that has reference events and the holdover timer,
the roster silence of members, every path and lap silence, the deadline of every outbox entry that is IN_FLIGHT or in BACKOFF, the
answer timer in AWAITING, and the width of BLOCK; the P advice is computed from the maximum ages of the peers; nothing else changes. A
TICK makes exactly this count, after the steps still due (taken first by the model's choice, log entry 5) and the begin of the period and before the blocks work the tick; a timer, a
window, a drill, or the silence of a member that is not at its end before the TICK nor at it has counted by one after it. That a
timing node with the INTERNAL source keeps its silence count is the model's reading (log entry 18), and that BLOCK's width falls by
whole periods its choice (log entry 17). -/
def Obligations.TickBeginsPeriod : Prop :=
  (∀ s : State, s.chip.sys.mode = .run → ∃ t : State, exec .tick s = .next t ∧
    t.chip.cad.period = s.chip.cad.period + 1 ∧ t.chip.cad.tickMove = 0 ∧
    t.chip.rng.joinQuiet = min 192 (s.chip.rng.joinQuiet + 1) ∧
    (t.chip.pln.expiryDue = true ↔ ∃ a : Assembly, t.chip.pln.asmStaged = some a ∧ t.chip.cad.period = a.e + 96) ∧
    t.chip.sys = s.chip.sys ∧ t.chip.cfg = s.chip.cfg ∧ t.mem = s.mem ∧ t.straps = s.straps ∧ t.pending = s.pending) ∧
  (∀ s : State, s.chip.sys.mode = .run → ∃ c : Chip,
    c.cad.period = s.chip.cad.period + 1 ∧ c.sys = s.chip.sys ∧ c.cfg = s.chip.cfg ∧
    (s.chip.rng.joinQuiet = 192 →
      exec .tick s = .next { s with chip := (c.buildBurst.fileOwn).returnSide c.atBoundary }) ∧
    (s.chip.rng.joinQuiet < 192 → exec .tick s = .next { s with chip := c.fileOwn.returnSide c.atBoundary })) ∧
  (∀ c : Chip,
    let n := c.cad.period
    c.fileOwn = { c with sel := { c.sel with store := c.fileOwn.sel.store } } ∧
    (∀ o : NodeId, o ≠ c.cfg.nodeId → c.fileOwn.sel.store[o] = c.sel.store[o]) ∧
    (∀ k : Fin 32, k ≠ mod32 n → (c.fileOwn.sel.store[c.cfg.nodeId])[k] = (c.sel.store[c.cfg.nodeId])[k]) ∧
    (c.fileOwn.sel.store[c.cfg.nodeId])[mod32 n] =
      { state := .held, period := n, slots := c.ownSlots n, version := (c.planAt n).version, unsync := false }) ∧
  (∀ (span : Nat) (c : Chip),
    let t := c.countTick span
    let held (a : Int) : Prop := ∃ (o : NodeId) (p : Port), o ≠ c.cfg.nodeId ∧ ((c.sel.paths[o]).get p).maxAge = some a
    t = { c with rng := t.rng, cad := t.cad, sel := t.sel, msg := t.msg, pre := t.pre, tap := t.tap } ∧
    (∀ p : Port,
      let x := c.portOf p
      t.portOf p = { x with
        acquireTimer := if x.rx = .acquire then x.acquireTimer.map (· - 1) else x.acquireTimer
        windowTicks := if x.rx = .up then min 48 (x.windowTicks + 1) else x.windowTicks
        quarTimer := if x.rx = .quarantine then x.quarTimer.map (· - 1) else x.quarTimer
        drill := x.drill - 1 }) ∧
    t.rng = { c.rng with port := t.rng.port, joinQuiet := min 192 (c.rng.joinQuiet + 1) } ∧
    t.cad = { c.cad with
      silence := if c.cad.role = .timing ∧ c.cfg.source = .internal then c.cad.silence else min 24 (c.cad.silence + 1)
      holdover := c.cad.holdover.map (· - 1) } ∧
    (∀ o : NodeId,
      let x := c.sel.origins[o]
      t.sel.origins[o] = { x with silence := if x.member = true then min 96 (x.silence + 1) else x.silence }) ∧
    (∀ (o : NodeId) (p : Port),
      let x := (c.sel.paths[o]).get p
      (t.sel.paths[o]).get p = { x with silence := min 96 (x.silence + 1) }) ∧
    (∀ p : Port,
      let x := c.sel.lap.get p
      t.sel.lap.get p = { x with silence := min 96 (x.silence + 1) }) ∧
    ((∀ a : Int, ¬ held a) → t.sel.advice = 2) ∧
    (∀ a : Int, held a → (∀ b : Int, held b → b ≤ a) →
      ∃ q : Int, 64 * (q - 1) < a + 32 ∧ a + 32 ≤ 64 * q ∧ (t.sel.advice : Int) = max 2 (min 16 q)) ∧
    t.sel = { c.sel with
      origins := t.sel.origins, paths := t.sel.paths, lap := t.sel.lap, advice := t.sel.advice } ∧
    t.msg = { c.msg with outbox := c.msg.outbox.map (fun e =>
      { e with deadline := if e.state = .waiting then e.deadline else e.deadline - 1 }) } ∧
    (c.pre.port = .awaiting → t.pre = { c.pre with trans := c.pre.trans.map (fun x => { x with timer := x.timer - 1 }) }) ∧
    (c.pre.port ≠ .awaiting → t.pre = c.pre) ∧
    t.tap = { c.tap with strobe := c.tap.strobe.map (· - span) }) ∧
  (∀ s : State, s.chip.sys.mode = .run →
    let c := s.chip.settleDue s.chip.span
    exec .tick s = .next
      { s with chip :=
          ((c.beginPeriod (s.chip.cad.period + 1)).countTick c.span).workTick (s.chip.rng.joinQuiet == 192) }) ∧
  (∀ s : State, s.chip.sys.mode = .run → ∃ t : State, exec .tick s = .next t ∧
    (∀ p : Port,
      let x := s.chip.portOf p
      let y := t.chip.portOf p
      (∀ k : Nat, x.rx = .acquire → x.acquireTimer = some (k + 2) → y.rx = .acquire ∧ y.acquireTimer = some (k + 1)) ∧
      (x.rx = .up → x.windowTicks < 47 →
        y.rx = .up ∧ y.windowTicks = x.windowTicks + 1 ∧ y.windowBad = x.windowBad) ∧
      (∀ k : Nat, x.rx = .quarantine → x.quarTimer = some (k + 2) →
        y.rx = .quarantine ∧ y.quarTimer = some (k + 1)) ∧
      (1 < x.drill → y.drill = x.drill - 1 ∧ y.txMode = x.txMode) ∧
      (t.chip.sel.lap.get p).silence = min 96 ((s.chip.sel.lap.get p).silence + 1)) ∧
    ∀ o : NodeId, (s.chip.sel.origins[o]).member = true → (s.chip.sel.origins[o]).silence < 95 →
      (t.chip.sel.origins[o]).member = true ∧ (t.chip.sel.origins[o]).silence = (s.chip.sel.origins[o]).silence + 1 ∧
      ∀ p : Port, ((t.chip.sel.paths[o]).get p).silence = min 96 (((s.chip.sel.paths[o]).get p).silence + 1)) ∧
  ∀ s : State, s.chip.sys.mode ≠ .run → exec .tick s = .next s

/-- A TICK in RUN with no change of plan or of presentation delay under way. At a block boundary: the FILLING bank becomes FROZEN as it
stands; the other is cleared and labelled for the next block; every tap's late mark is cleared, and a SEND tap with unwritten sent
positions raises its underrun count by their number; BLOCK goes high for its width; and the half of block m − 1 − J is handed that
block where it is eligible, every later block being eligible from then on, and shows nothing otherwise. At every other tick banks, roles,
taps and what the halves show stay. A width still running from the boundary before is dropped (the model's choice, log entry 58). The
judging of a tap with unwritten positions posts SEND UNDERRUN with the tap number and the count. -/
def Obligations.TickAtBoundarySwapsBanks : Prop :=
  (∀ s : State, s.chip.sys.mode = .run → s.chip.sel.pending = none → s.chip.sel.deferred = false →
    s.chip.pln.staged = none → s.chip.pln.repair = none → s.chip.tap.taps.length ≤ 12 →
    let n := s.chip.cad.period + 1
    let d := s.chip.cfg.blockLen
    let newly := s.chip.tap.frozen + 1
    let count := unwritten s.chip.tap.banks[newly] d ((s.chip.pln.held n).total s.chip.cfg.nodeId)
    let first := n - BitVec.ofNat 32 ((1 + s.chip.tap.j) * d)
    ∃ t : State, exec .tick s = .next t ∧ t.chip.tap.j = s.chip.tap.j ∧
      (n.toNat % d = 0 →
        t.chip.tap.frozen = newly ∧ t.chip.tap.banks[newly] = s.chip.tap.banks[newly] ∧
        t.chip.tap.banks[s.chip.tap.frozen] = { block := blockOf d (n + BitVec.ofNat 32 d) } ∧
        t.chip.tap.strobe = some s.chip.cfg.blockWidth ∧
        t.chip.tap.taps = s.chip.tap.taps.map (fun x =>
          { x with
            lateMark := false
            underrun := if x.kind = .send then x.underrun + wordOf (count x) else x.underrun }) ∧
        ((∀ m : Period, s.chip.tap.eligible = some m → atOrAfter first m = true) →
          t.chip.tap.shown = s.chip.tap.shown.set (Fin.ofNat 2 (blockOf d first)) (some (blockOf d first)) ∧
          t.chip.tap.eligible = none) ∧
        (∀ m : Period, s.chip.tap.eligible = some m → atOrAfter first m = false →
          t.chip.tap.shown = s.chip.tap.shown.set (Fin.ofNat 2 (blockOf d first)) none ∧
          t.chip.tap.eligible = some m)) ∧
      (n.toNat % d ≠ 0 →
        t.chip.tap.frozen = s.chip.tap.frozen ∧ t.chip.tap.banks = s.chip.tap.banks ∧ t.chip.tap.taps = s.chip.tap.taps ∧
        t.chip.tap.shown = s.chip.tap.shown ∧ t.chip.tap.eligible = s.chip.tap.eligible)) ∧
  ∀ (bank : SendBank) (total k : Nat) (x : Tap) (c : Chip), c.tap.taps[k]? = some x → x.kind = .send →
    0 < unwritten bank c.cfg.blockLen total x →
    c.judgeUnderrun bank total k = Chip.post .sendUnderrun k (wordOf (unwritten bank c.cfg.blockLen total x))
      { c with
        tap := { c.tap with
          taps := c.tap.taps.set k { x with underrun := x.underrun + wordOf (unwritten bank c.cfg.blockLen total x) } } }

/-- A TICK in RUN with no change of presentation delay under way presents and evaluates the next period n to present, unless the
present period minus P is earlier; then the banks, C and Ct stay. The presentation has the plan in force for n where no plan waits,
and a peer's slots exactly where its entry is acceptable; a peer that owns slots and is missing counts the period, and its presence
follows, with RETURN LOSS and RETURN RESTORED. Every talk entry changes state by its source; every record is evaluated with the talk
entries as they then stand, and no command of the tick changes any other item of it but for its claim. The evaluation writes frame n mod
D of the bank of block floor(n/D), one entry per record, and no other frame of any bank: "pass" for a MISSING bound record of policy
PASS, and an output for every other, with the loss flag exactly for a MISSING bound record. What an evaluation gives a record is
RecordEvaluationFollowsStages. A peer whose leave is due at this tick is left out, and an entry whose hold has run out counts as QUIET
before its HOLD_END is commanded (log entry 4), its hold remaining being stopped then (log entry 60). A slot held as another kind than
TALK makes the last owner none even where its owner is missing (log entry 64). A TALK slot that was filed with no key reads as key up (log
entry 67). -/
def Obligations.TickWritesReceiveBank : Prop :=
  (∀ s : State, s.chip.sys.mode = .run → s.chip.sel.pending = none → s.chip.sel.deferred = false →
    let n := s.chip.sel.next
    let d := s.chip.cfg.blockLen
    let early := earlier (s.chip.cad.period + 1 - BitVec.ofNat 32 s.chip.sel.delay) n
    ∃ t : State, exec .tick s = .next t ∧
      (early = true → t.chip.sel.next = n ∧ t.chip.ret.banks = s.chip.ret.banks ∧
        ∀ r : RecordId, (t.chip.recordAt r).main = (s.chip.recordAt r).main ∧
          (t.chip.recordAt r).talkRamp = (s.chip.recordAt r).talkRamp) ∧
      (early = false → t.chip.sel.next = n + 1 ∧ ∃ (v : Presentation) (frame : Vector BankEntry 128),
        v.period = n ∧
        (s.chip.pln.staged = none → s.chip.pln.repair = none →
          (s.chip.pln.prior = none ∨ atOrAfter n s.chip.pln.adopted = true → v.plan = s.chip.pln.current) ∧
          ∀ p : Plan, s.chip.pln.prior = some p → atOrAfter n s.chip.pln.adopted = false → v.plan = p) ∧
        (∀ o : NodeId, o ≠ s.chip.cfg.nodeId →
          ((s.chip.sel.origins[o]).member = true → (s.chip.sel.origins[o]).silence < 95) →
          let e := (s.chip.sel.store[o])[mod32 n]
          let x := s.chip.sel.origins[o]
          let y := t.chip.sel.origins[o]
          (∀ l : List Slot, v.rows[o] = some l ↔
            v.plan.owns o = true ∧ e.state = .held ∧ e.period = n ∧ e.slots = l ∧ e.version = v.plan.version ∧
              l.length = v.plan.total o ∧ e.unsync = false) ∧
          y.present = (v.rows[o]).isSome ∧
          (v.rows[o] = none → v.plan.owns o = true → x.present = true → y.missing = 1) ∧
          (v.rows[o] = none → v.plan.owns o = true → x.present = false → y.missing = x.missing + 1) ∧
          (v.plan.owns o = false ∨ v.rows[o] ≠ none → y.missing = x.missing)) ∧
        (mod32 n ≠ mod32 (s.chip.cad.period + 1) →
          let e := (s.chip.sel.store[s.chip.cfg.nodeId])[mod32 n]
          v.rows[s.chip.cfg.nodeId] = some (if e.state = .held ∧ e.period = n then e.slots else [])) ∧
        t.chip.ret.banks = upd s.chip.ret.banks (Fin.ofNat 8 (blockOf d n))
          (fun bank => bank.set (Fin.ofNat 32 (n.toNat % d)) frame) ∧
        (∀ e : Fin 4,
          t.chip.ret.talk[e] = (s.chip.ret.talk[e]).update s.chip.ret.hold (v.view (s.chip.ret.talk[e]).binding)) ∧
        ∀ r : RecordId,
          let x := s.chip.recordAt r
          let y := t.chip.recordAt r
          let z := x.evaluate s.chip.ret.attack s.chip.ret.release t.chip.ret.talk (v.view x.binding)
          let lost := y.present = false ∧ y.binding ≠ none
          y = { z.1 with claim := y.claim, slotInput := y.slotInput, claimDue := y.claimDue } ∧ frame[r] = z.2 ∧
          (frame[r] = .pass ↔ lost ∧ y.policy = .pass) ∧
          ∀ (q : Sample) (g : OutTag), frame[r] = .output q g → (g.loss = true ↔ lost))) ∧
  (∀ (h : Nat) (view : Option SlotView) (e : TalkEntry),
    let e0 : TalkEntry := if e.state = .holding ∧ e.hold = some 0 then { e with state := .quiet, hold := none } else e
    let y := e.update h view
    (∀ (o : NodeId) (q : Slot), view = some ⟨o, .talk, some q⟩ →
      (q.field = .key true → y = { e with state := .keyed, hold := none, owner := some o, sample := q.sample }) ∧
      (q.field ≠ .key true →
        (∀ o' : NodeId, e.owner = some o' → o' ≠ o →
          y = { e with state := .quiet, hold := none, owner := some o, sample := q.sample }) ∧
        ((∀ o' : NodeId, e.owner = some o' → o' = o) →
          (e0.state = .quiet → y = { e0 with owner := some o, sample := q.sample }) ∧
          (e0.state = .keyed → h = 0 →
            y = { e with state := .quiet, hold := none, owner := some o, sample := q.sample }) ∧
          (e0.state = .keyed → h ≠ 0 →
            y = { e with state := .holding, hold := some h, owner := some o, sample := q.sample }) ∧
          (∀ k : Nat, e0.state = .holding → e.hold = some (k + 1) →
            y = { e with hold := some k, owner := some o, sample := q.sample } ∧
            (y.holds = true ↔ k ≠ 0) ∧ (k = 0 → y.holdEnd.state = .quiet))))) ∧
    (∀ o : NodeId, view = some ⟨o, .talk, none⟩ → y = { e with state := .quiet, hold := none }) ∧
    ((∀ v : SlotView, view = some v → v.kind ≠ .talk) →
      y = { e with state := .quiet, hold := none, owner := none })) ∧
  ∀ (v : Presentation) (o : NodeId) (c : Chip), o ≠ c.cfg.nodeId → v.plan.owns o = true →
    let x := c.sel.origins[o]
    (v.rows[o] = none → x.present = true →
      c.presence v o = (c.onSel (·.onOrigin o (fun x => { x with present := false, missing := 1 }))).post .returnLoss o.val
        v.period) ∧
    (v.rows[o] ≠ none → x.present = false →
      c.presence v o = (c.onSel (·.onOrigin o (fun x => { x with present := true }))).post .returnRestored o.val
        (wordOf (min 65535 x.missing.toNat))) ∧
    ((v.rows[o] = none ↔ x.present = false) → (c.presence v o).ord = c.ord)

/-- The Burst Builder hands a lit transmitter with room one burst of the present period: origin and serial from the
configuration, the version of the plan in force, hop count 0, the cadence and port reports as they stand, the own slots, the
answer at the head of the queue, and as aux field what the arbitration gives. By the arbitration, a staged fragment goes on an
even period of an announcement; a ready message, the oldest first, on any other; and a current fragment at the authority
outside an announcement where no message is ready. A staged fragment carries the staged plan's kind, version and E, a current one the
current plan's version; each has its own number, which advances by one from 5 back to 0, the other staying. Own position p is the p-th
slot of this node's allotments; its slot takes sample, valid (the written mark) and overload, and for TALK the key, from frame n mod D
of the FROZEN bank, and for MIC the step of input p: UNKNOWN where there is none, the pending step once its effect period is at or
before n, else the stamp step. A position not written departs not valid, with sample 0, overload clear and key up. -/
def Obligations.OwnBurstIsBuiltAndQueued : Prop :=
  (∀ (c : Chip) (p : Port), c.lit p = true → (c.portOf p).queue.length < 16 →
    ∃ b : Burst, (c.buildBurst.portOf p).queue = (c.portOf p).queue ++ [ownEntry b] ∧
      b.origin = c.cfg.nodeId ∧ b.serial = c.cfg.serial ∧ b.period = c.cad.period ∧
      b.version = (c.planAt c.cad.period).version ∧ b.hop = 0 ∧
      b.cadence.state = c.cad.state ∧ b.cadence.role = c.cad.role ∧ b.cadence.ref = c.cad.ref ∧ b.cadence.rank = c.cfg.rank ∧
      (b.cadence.unsync = true ↔ c.cad.role = .follower ∧ (c.cad.state = .free ∨ c.cad.state = .locking)) ∧
      b.ports.east = (c.portOf .east).rx ∧ b.ports.west = (c.portOf .west).rx ∧
      b.slots = c.ownSlots c.cad.period ∧ b.answer = c.msg.answers.head? ∧ b.aux = c.arbitrate.1) ∧
  (∀ (x : Plan) (o : NodeId), (x.ownKinds o).length = x.total o ∧
    ∀ (front back : List Allotment) (a : Allotment), x.allots = front ++ a :: back → a.owner = o →
      ∀ j : Nat, j < a.count → (x.ownKinds o)[ownTotal front o + j]? = some a.kind) ∧
  (∀ (c : Chip) (n : Period),
    let kinds := (c.planAt n).ownKinds c.cfg.nodeId
    let frame := (c.tap.banks[c.tap.frozen]).frames[Fin.ofNat 32 (n.toNat % c.cfg.blockLen)]
    (c.ownSlots n).length = kinds.length ∧
    ∀ (p : Fin 96) (k : SlotKind), kinds[p.val]? = some k → ∃ q : Slot, (c.ownSlots n)[p.val]? = some q ∧
      q.sample = (frame[p]).sample ∧ q.valid = (frame[p]).written ∧ q.overload = (frame[p]).overload ∧
      (k = .talk → q.field = .key (frame[p]).key) ∧ (k = .mix ∨ k = .line → q.field = .absent) ∧
      (c.banksOk → (frame[p]).written = false →
        q.valid = false ∧ q.sample = 0 ∧ q.overload = false ∧ (k = .talk → q.field = .key false)) ∧
      (k = .mic → (c.cfg.preampCount ≤ p.val → q.field = .step none) ∧
        ∀ i : InputId, i.val = p.val → c.existing i →
          (∀ (st : PreStep) (e : Period), c.pre.inputs[i].pending = some (st, e) →
            (atOrBefore e n = true → q.field = .step (some st)) ∧
            (atOrBefore e n = false → q.field = .step c.pre.inputs[i].stamp)) ∧
          (c.pre.inputs[i].pending = none → q.field = .step c.pre.inputs[i].stamp))) ∧
  (∀ c : Chip, c.cfg.nodeId = c.cfg.authority → c.pln.announcing c.cad.period = true → c.cad.period.toNat % 2 = 0 →
    c.arbitrate.1 = .fragment (c.pln.supply c.cad.period).1) ∧
  (∀ (c : Chip) (a rest : List OutEntry) (e : OutEntry),
    (c.cfg.nodeId = c.cfg.authority → c.pln.announcing c.cad.period = true → c.cad.period.toNat % 2 = 1) →
    c.msg.outbox = a ++ e :: rest → (∀ x ∈ a, x.ready c.msg.outbox c.cfg.nodeId = false) →
    e.ready c.msg.outbox c.cfg.nodeId = true →
    c.arbitrate.1 = .message { dest := e.dest, toggle := e.toggle.getD c.msg.toggle[e.dest], body := e.body } ∧
    c.arbitrate.2 = c.withOutbox (a ++
      { e with toggle := some (e.toggle.getD c.msg.toggle[e.dest]), attempts := e.attempts + 1, state := .inFlight,
               deadline := 96 } :: rest)) ∧
  (∀ c : Chip, (∀ x ∈ c.msg.outbox, x.ready c.msg.outbox c.cfg.nodeId = false) →
    (c.cfg.nodeId ≠ c.cfg.authority → c.arbitrate = (.absent, c)) ∧
    (c.cfg.nodeId = c.cfg.authority → c.pln.announcing c.cad.period = false →
      c.arbitrate.1 = .fragment (c.pln.supply c.cad.period).1) ∧
    (c.cfg.nodeId = c.cfg.authority → c.pln.announcing c.cad.period = true → c.cad.period.toNat % 2 = 1 →
      c.arbitrate = (.absent, c))) ∧
  ∀ (x : PlanStore) (n : Period),
    (∀ st : StagedPlan, x.staged = some st → st.announced = true → later st.effective n = true →
      x.supply n =
        ({ kind := .staged st.e, version := st.plan.version, number := x.nextStaged
           body := fragmentBody st.plan x.nextStaged },
         { x with nextStaged := x.nextStaged + 1 })) ∧
    (x.staged = none → x.repair = none →
      x.supply n =
        ({ kind := .current, version := x.current.version, number := x.nextCurrent
           body := fragmentBody x.current x.nextCurrent },
         { x with nextCurrent := x.nextCurrent + 1 }))

/-- PRESENTATION_DELAY_CHANGE at a boundary with a pending P: every cell that waits for the boundary completes DONE with that
delay, the pending P becomes none, and a different P takes effect with the return handover restarted from the next period to
present. Where P stays as it is, the handover of the boundary is made. With a different P every record restarts C, and then the part
presents: where the present period minus P is the next period to present or later, the periods before it are skipped one by one and
it is presented; where it is earlier, nothing is presented and nothing else changes. A skipped period is evaluated with every peer
missing, changes no presence, and leaves no entry of its place HELD for it or an earlier period. What comes between the boundary's tick
and the change is the model's choice (log entry 8), as is ORDER DONE before the events of the presentation (log entry 59). -/
def Obligations.DelayChangeTakesEffect : Prop :=
  (∀ (p1 : Nat) (s : State), s.chip.sel.deferred = true → s.chip.sel.pending = some p1 →
    ∃ t : State, exec .presentationDelayChange s = .next t ∧
      t.chip.sel.delay = p1 ∧ t.chip.sel.pending = none ∧
      (p1 ≠ s.chip.sel.delay → t.chip.tap.j = jOf p1 s.chip.cfg.blockLen ∧ t.chip.tap.eligible = some s.chip.sel.next ∧
        t.chip.tap.shown = Vector.replicate 2 none) ∧
      (p1 = s.chip.sel.delay → t.chip.tap = s.chip.tap.hand s.chip.cfg.blockLen
        (s.chip.cad.period - BitVec.ofNat 32 ((1 + s.chip.tap.j) * s.chip.cfg.blockLen))) ∧
      (∀ i : CellId, (s.chip.cellAt i).state = .running →
        (s.chip.cellAt i).order.map (·.waits) = some .boundary →
        (t.chip.cellAt i).state = .done ∧ (t.chip.cellAt i).value = wordOf p1) ∧
      t.chip.cad = s.chip.cad ∧ t.chip.pln = s.chip.pln ∧ t.chip.rng = s.chip.rng ∧ t.mem = s.mem ∧
      (p1 ≠ s.chip.sel.delay → ∃ c : Chip,
        c = { s.chip with
          sel := { s.chip.sel with delay := p1, pending := none, deferred := false }
          tap := { s.chip.tap with
            shown := Vector.replicate 2 none, j := jOf p1 s.chip.cfg.blockLen, eligible := some s.chip.sel.next }
          ret := { s.chip.ret with records := c.ret.records }
          ord := c.ord } ∧
        (∀ r : RecordId, c.recordAt r =
          { s.chip.recordAt r with main := { (s.chip.recordAt r).main with value := 0, target := 0 } }) ∧
        let first := s.chip.sel.next
        let target := s.chip.cad.period - BitVec.ofNat 32 p1
        (earlier target first = true → t.chip = c) ∧
        (target = first → t.chip = c.presentPeriod false ∧ t.chip.sel.next = target + 1) ∧
        (later target first = true → t.chip.sel.next = target + 1 ∧
          t.chip = (Nat.iterate (·.presentPeriod true) (target - first).toNat c).presentPeriod false))) ∧
  ∀ c : Chip,
    let n := c.sel.next
    let d := c.presentPeriod true
    ∃ v : Presentation, v.period = n ∧ v.plan = c.planAt n ∧ (∀ o : NodeId, o ≠ c.cfg.nodeId → v.rows[o] = none) ∧
      d.sel.next = n + 1 ∧ d.sel.origins = c.sel.origins ∧
      (∀ (o : NodeId) (k : Fin 32), k ≠ mod32 n → (d.sel.store[o])[k] = (c.sel.store[o])[k]) ∧
      (∀ o : NodeId,
        let x := (c.sel.store[o])[mod32 n]
        (x.state = .held → atOrBefore x.period n = true → (d.sel.store[o])[mod32 n] = { x with state := .presented }) ∧
        (x.state ≠ .held ∨ atOrBefore x.period n = false → (d.sel.store[o])[mod32 n] = x)) ∧
      (∀ e : Fin 4, d.ret.talk[e] = TalkEntry.update c.ret.hold (v.view (c.ret.talk[e]).binding) c.ret.talk[e]) ∧
      ∀ r : RecordId,
        let x := c.recordAt r
        let y := d.recordAt r
        let z := x.evaluate c.ret.attack c.ret.release d.ret.talk (v.view x.binding)
        y = { z.1 with claim := y.claim, slotInput := y.slotInput, claimDue := y.claimDue }

/-- ADOPTION of a staged plan whose effective period has come: it becomes current from that period, the plan it replaces becomes
the prior plan, PLAN ADOPTED is posted, and an announced one completes its waiting cell DONE with the new version. A due pending
repair is adopted in the same way where no plan is staged. -/
def Obligations.AdoptionReplacesPlan : Prop :=
  (∀ (st : StagedPlan) (s : State), s.chip.pln.staged = some st → atOrBefore st.effective s.chip.cad.period = true →
    ∃ t : State, exec .adoption s = .next t ∧
      t.chip.pln = { s.chip.pln with
        current := st.plan, adopted := st.effective, prior := some s.chip.pln.current, staged := none } ∧
      (st.announced = false → t.chip = Chip.post .planAdopted st.plan.version.toNat
        (wordOf s.chip.pln.current.version.toNat) { s.chip with pln := t.chip.pln }) ∧
      (st.announced = true → ∀ i : CellId, (s.chip.cellAt i).state = .running →
        (s.chip.cellAt i).order.map (·.waits) = some .adoption →
        (t.chip.cellAt i).state = .done ∧ (t.chip.cellAt i).value = wordOf st.plan.version.toNat) ∧
      t.mem = s.mem) ∧
  ∀ (r : Repair) (s : State), s.chip.pln.staged = none → s.chip.pln.repair = some r →
    atOrBefore r.effective s.chip.cad.period = true →
    exec .adoption s = .next (s.onChip (fun c => Chip.post .planAdopted r.plan.version.toNat
      (wordOf c.pln.current.version.toNat)
      { c with pln := { c.pln with
          current := r.plan, adopted := r.effective, prior := some c.pln.current, repair := none } }))

/-- BLOCK_STROBE_END lowers BLOCK in the period in which its width ends, the period being 64 age units long but for the displacement
ordered (log entry 17). ASSEMBLY_EXPIRY empties the staged assembly whose end has fallen due at the tick of E + 96, and does nothing
where no end is due. HOLD_END makes a HOLDING talk entry whose hold remaining is 0 QUIET, its hold remaining being stopped (log entry
60). Each changes nothing else. -/
def Obligations.TickExpiriesEndTheirItem : Prop :=
  (∀ (w : Nat) (s : State), s.chip.tap.strobe = some w → (w : Int) ≤ 64 + s.chip.cad.tickMove →
    exec .blockStrobeEnd s = .next (s.onChip (fun c => { c with tap := { c.tap with strobe := none } }))) ∧
  (∀ s : State, s.chip.pln.expiryDue = true →
    exec .assemblyExpiry s = .next (s.onChip (fun c =>
      { c with pln := { c.pln with asmStaged := none, expiryDue := false } }))) ∧
  (∀ s : State, s.chip.pln.expiryDue = false → exec .assemblyExpiry s = .next s) ∧
  ∀ (e : Fin 4) (s : State), s.chip.ret.talk[e].state = .holding → s.chip.ret.talk[e].hold = some 0 →
    exec (.holdEnd e) s = .next (s.onChip (fun c =>
      { c with ret := { c.ret with
          talk := c.ret.talk.set e { c.ret.talk[e] with state := .quiet, hold := none } } }))

/-! ## The ring -/

/-- A change of light. In RUN, LIGHT_ARRIVAL at a DARK port gives ACQUIRE with good run 0 and the acquire timer at 4,800; LIGHT_LOSS
gives DARK, from ACQUIRE with the acquire timer stopped and good run 0, from UP with the error window cleared. Each posts PORT
STATE. In QUARANTINE, and outside RUN, the light present item alone changes. At entry to RUN a port whose light is present takes
a light arrival. No counter of bursts changes. That the good run stays at a loss in UP is the model's choice (log entry 55). That the first tick leaves that port's acquire timer at 4,800 is the model's reading
(log entry 30). -/
def Obligations.LightChangesReceiveState : Prop :=
  (∀ (p : Port) (s : State), s.chip.sys.mode = .run → (s.chip.portOf p).rx = .dark →
    exec (.lightArrival p) s = .next (s.onChip (fun c => (c.onPort p (fun x =>
      { x with light := true, rx := .acquire, goodRun := 0, acquireTimer := some 4800 })).post .portState (portCode p) 1))) ∧
  (∀ (p : Port) (s : State), s.chip.sys.mode = .run → (s.chip.portOf p).rx = .acquire →
    exec (.lightLoss p) s = .next (s.onChip (fun c => (c.onPort p (fun x =>
      { x with light := false, rx := .dark, acquireTimer := none, goodRun := 0 })).post .portState (portCode p) 0))) ∧
  (∀ (p : Port) (s : State), s.chip.sys.mode = .run → (s.chip.portOf p).rx = .up →
    exec (.lightLoss p) s = .next (s.onChip (fun c => (c.onPort p (fun x =>
      { x with light := false, rx := .dark, windowTicks := 0, windowBad := 0 })).post .portState (portCode p) 0))) ∧
  (∀ (p : Port) (s : State), s.chip.sys.mode ≠ .run ∨ (s.chip.portOf p).rx = .quarantine →
    exec (.lightArrival p) s = .next (s.onChip (fun c => c.onPort p (fun x => { x with light := true }))) ∧
    exec (.lightLoss p) s = .next (s.onChip (fun c => c.onPort p (fun x => { x with light := false })))) ∧
  ∀ (bytes : List Byte) (m : Image) (s : State),
    s.chip.sys.mode = .loading → s.chip.sys.load = .reading → loadCheck bytes m s.chip.windowBase = none →
    ∃ t : State, exec (.configLoad bytes m) s = .next t ∧ ∀ p : Port, (s.chip.portOf p).rx = .dark →
      (t.chip.portOf p).light = (s.chip.portOf p).light ∧
      ((s.chip.portOf p).light = false → (t.chip.portOf p).rx = .dark) ∧
      ((s.chip.portOf p).light = true → (t.chip.portOf p).rx = .acquire ∧ (t.chip.portOf p).goodRun = 0 ∧
        (t.chip.portOf p).acquireTimer = some 4800)

/-- A burst in ACQUIRE only qualifies the link: a good one counts toward the good run, the sixteenth in a row brings the port UP
with PORT STATE, the good run staying at 16 (the model's choice, log entry 55), and a bad one starts the run again. In DARK and QUARANTINE a burst has no effect, and in UP a bad one counts in
the error window and is discarded; that it counts in a window whose end has come but has not been commanded yet is the model's choice
(log entry 54). -/
def Obligations.UnservedBurstsOnlyCount : Prop :=
  ∀ (p : Port) (el : Nat) (b : Burst) (check : Word) (s : State),
    ((s.chip.portOf p).rx = .acquire → goodCheck b check = true → (s.chip.portOf p).goodRun < 15 →
      exec (.burstArrival p el b check) s = .next (s.onChip (fun c => c.onPort p (fun x =>
        { x with goodRun := x.goodRun + 1, nGood := x.nGood + 1 })))) ∧
    ((s.chip.portOf p).rx = .acquire → goodCheck b check = true → (s.chip.portOf p).goodRun = 15 →
      exec (.burstArrival p el b check) s = .next (s.onChip (fun c => (c.onPort p (fun x =>
        { x with rx := .up, goodRun := 16, nGood := x.nGood + 1, acquireTimer := none, windowTicks := 0,
                 windowBad := 0 })).post .portState (portCode p) 2))) ∧
    ((s.chip.portOf p).rx = .acquire → goodCheck b check = false →
      exec (.burstArrival p el b check) s = .next (s.onChip (fun c => c.onPort p (fun x =>
        { x with goodRun := 0, nBad := x.nBad + 1 })))) ∧
    ((s.chip.portOf p).rx = .up → goodCheck b check = false →
      exec (.burstArrival p el b check) s = .next (s.onChip (fun c => c.onPort p (fun x =>
        { x with windowBad := min 65535 (x.windowBad + 1), nBad := x.nBad + 1 })))) ∧
    ((s.chip.portOf p).rx = .dark ∨ (s.chip.portOf p).rx = .quarantine →
      exec (.burstArrival p el b check) s = .next s)

/-- A burst with this node's id, in UP. A lap return is counted, sets the port's lap silence to 0 and its last lap age, and the ring
state follows; it is neither forwarded nor stored. A burst of another unit with this id reaches no block: it is counted as a good
burst, and ID CLASH is posted unless one was posted within the last 96 periods. -/
def Obligations.OwnIdBurstsAreNotCopies : Prop :=
  (∀ (p : Port) (el : Nat) (b : Burst) (check : Word) (s : State), s.chip.hearsGood p b check →
    b.origin = s.chip.cfg.nodeId → b.serial = s.chip.cfg.serial →
    ∃ t : State, exec (.burstArrival p el b check) s = .next t ∧
      t.chip.portOf p = { s.chip.portOf p with
        nGood := (s.chip.portOf p).nGood + 1, nLap := (s.chip.portOf p).nLap + 1 } ∧
      t.chip.portOf (otherPort p) = s.chip.portOf (otherPort p) ∧
      (t.chip.sel.lap.get p).silence = 0 ∧
      (t.chip.sel.lap.get p).lastAge = some (ageOf s.chip.cad.period b.period el) ∧
      t.chip.sel.lap.get (otherPort p) = s.chip.sel.lap.get (otherPort p) ∧
      t.chip.sel.ring = t.chip.ringOf ∧ t.chip.sel.store = s.chip.sel.store ∧ t.chip.sel.origins = s.chip.sel.origins ∧
      t.chip.cad = s.chip.cad ∧ t.chip.pln = s.chip.pln ∧ t.chip.msg = s.chip.msg ∧ t.chip.ret = s.chip.ret ∧
      t.chip.pre = s.chip.pre ∧ t.chip.tap = s.chip.tap ∧ t.mem = s.mem) ∧
  ∀ (p : Port) (el : Nat) (b : Burst) (check : Word) (s : State), s.chip.hearsGood p b check →
    b.origin = s.chip.cfg.nodeId → b.serial ≠ s.chip.cfg.serial →
    (quiet96 s.chip.rng.idClash s.chip.cad.period = true →
      exec (.burstArrival p el b check) s = .next (s.onChip (fun c =>
        Chip.post .idClash (portCode p) b.serial
          { c with rng := { (c.onPort p (fun x => { x with nGood := x.nGood + 1 })).rng with
              idClash := some c.cad.period } }))) ∧
    (quiet96 s.chip.rng.idClash s.chip.cad.period = false →
      exec (.burstArrival p el b check) s = .next (s.onChip (fun c =>
        c.onPort p (fun x => { x with nGood := x.nGood + 1 }))))

/-- A good burst of a known peer that is no reference copy, at a port in UP, is forwarded and filed. Forwarding: with a hop count
below 7 a copy with the count one higher joins the queue of the other port's lit transmitter, or is dropped and counted where 16 are
held (the burst that is leaving among them, log entry 48; one handed to an idle transmitter leaves at once, log entry 66); a dark one, and a hop count of 7, leave that port as it was. Filing: roster
silence 0, the origin's reports, its path record on this port, the late or out-of-window count, and entry n mod 32 of its row for an
in-window copy whose period is not held there already; the settled age is recorded where this node and the copy are LOCKED to one
reference. A burst with no aux field and no answer reaches no other block but for the plan check. -/
def Obligations.PeerBurstIsForwardedAndFiled : Prop :=
  (∀ (p : Port) (el : Nat) (b : Burst) (check : Word) (s : State), s.chip.hearsPeer p b check →
    let o := b.origin
    let q := otherPort p
    let age := s.chip.ageNow b el
    let late := earlier b.period s.chip.sel.next = true ∨ (s.chip.sel.delay : Int) * 64 ≤ age
    let beyond := ¬ late ∧ 32 ≤ (b.period - s.chip.sel.next).toNat
    let x := (s.chip.sel.paths[o]).get p
    let e := (s.chip.sel.store[o])[mod32 b.period]
    ∃ t : State, exec (.burstArrival p el b check) s = .next t ∧
      t.chip.portOf p = { s.chip.portOf p with nGood := (s.chip.portOf p).nGood + 1 } ∧
      (b.hop = 7 ∨ s.chip.lit q = false → t.chip.portOf q = s.chip.portOf q) ∧
      (b.hop ≠ 7 → s.chip.lit q = true → (s.chip.portOf q).queue.length < 16 →
        t.chip.portOf q = { s.chip.portOf q with
          queue := (s.chip.portOf q).queue ++ [{ burst := { b with hop := b.hop + 1 }, forwarded := true }]
          leaving := some ((s.chip.portOf q).leaving.getD (s.chip.portOf q).txMode) }) ∧
      (b.hop ≠ 7 → s.chip.lit q = true → 16 ≤ (s.chip.portOf q).queue.length →
        t.chip.portOf q = { s.chip.portOf q with nDropped := (s.chip.portOf q).nDropped + 1 }) ∧
      t.chip.rng.joinQuiet = s.chip.rng.joinQuiet ∧ t.chip.rng.idClash = s.chip.rng.idClash ∧
      (∃ outside : Word,
        (beyond → outside = (s.chip.sel.origins[o]).outside + 1) ∧
        (¬ beyond → outside = (s.chip.sel.origins[o]).outside) ∧
        t.chip.sel.origins = s.chip.sel.origins.set o
          { s.chip.sel.origins[o] with
            silence := 0, cadence := some b.cadence, ports := some b.ports, outside := outside }) ∧
      (∃ (top : Option Int) (count : Word),
        (b.cadence.unsync = true ∨ beyond → top = x.maxAge) ∧
        (b.cadence.unsync = false → ¬ beyond → top = some (x.maxAge.elim age (fun m => max m age))) ∧
        (late → count = x.late + 1) ∧ (¬ late → count = x.late) ∧
        t.chip.sel.paths = upd s.chip.sel.paths o (fun v => v.put p
          { lastAge := some age, maxAge := top, copies := x.copies + 1, late := count, hop := some (b.hop.val + 1),
            silence := 0 })) ∧
      (¬ late → ¬ beyond → (e.state ≠ .held ∨ e.period ≠ b.period) →
        t.chip.sel.store = upd s.chip.sel.store o (fun row => row.set (mod32 b.period)
          { state := .held, period := b.period, slots := b.slots, version := b.version, unsync := b.cadence.unsync })) ∧
      (late ∨ beyond ∨ (e.state = .held ∧ e.period = b.period) → t.chip.sel.store = s.chip.sel.store) ∧
      t.chip.sel = { s.chip.sel with
        origins := t.chip.sel.origins, paths := t.chip.sel.paths, store := t.chip.sel.store } ∧
      (s.chip.cad.state = .locked ∧ b.cadence.unsync = false ∧ b.cadence.state = .locked ∧
          b.cadence.ref = s.chip.cad.ref →
        t.chip.cad = { s.chip.cad with settled := upd s.chip.cad.settled o (fun v => v.put p (some age)) }) ∧
      (¬ (s.chip.cad.state = .locked ∧ b.cadence.unsync = false ∧ b.cadence.state = .locked ∧
          b.cadence.ref = s.chip.cad.ref) → t.chip.cad = s.chip.cad) ∧
      t.chip.sys = s.chip.sys ∧ t.chip.cfg = s.chip.cfg ∧ t.chip.tap = s.chip.tap ∧ t.mem = s.mem ∧
      (b.aux = .absent → b.answer = none →
        t.chip.ret = s.chip.ret ∧ t.chip.pre = s.chip.pre ∧
        t.chip.msg = { s.chip.msg with lastTaken := s.chip.msg.lastTaken.set o (some b.period) } ∧
        t.chip.pln = { s.chip.pln with mismatch := t.chip.pln.mismatch } ∧ t.chip.ord.cells = s.chip.ord.cells)) ∧
  ∀ (p : Port) (age : Int) (b : Burst) (s : Selector),
    let e := (s.store[b.origin])[mod32 b.period]
    let t := s.takeCopy p age b .inside
    ((e.state ≠ .held ∨ e.period ≠ b.period) →
      (t.store[b.origin])[mod32 b.period] =
        { state := .held, period := b.period, slots := b.slots, version := b.version, unsync := b.cadence.unsync }) ∧
    (e.state = .held → e.period = b.period → t.store = s.store)

/-- A good burst of a peer in UP changes the roster, at a part that is LOCKED with no step armed. From an origin that is not a member
it makes the origin a member with its serial and rank, the epoch one higher; with neither message, answer nor plan check, and no record
on an input of the origin, ROSTER JOIN is the first event posted. From a member with another serial, where this node is itself a
candidate (so that the leave cannot take the part to FREE), the origin leaves and joins: the new serial is recorded, the epoch is two
higher, and what was delivered from the old unit is forgotten. At a part in FREE with no reference and no other member, as a part is
after reset and before it may elect itself, the first peer joins the same way; one of rank below 15 becomes the reference, with ROSTER
JOIN and TIMING CHANGE the first two events (in the model's order, log entry 59), and its burst is stepped onto; one of rank 15 leaves
the part in FREE with no reference. -/
def Obligations.PeerBurstJoinsRoster : Prop :=
  (∀ (p : Port) (el : Nat) (b : Burst) (check : Word) (s : State), s.chip.hearsGood p b check →
    b.origin ≠ s.chip.cfg.nodeId → s.chip.cad.state = .locked → s.chip.cad.stepArmed = false →
    ((s.chip.sel.origins[b.origin]).member = true → (s.chip.sel.origins[b.origin]).serial ≠ b.serial →
      (s.chip.candidateRank s.chip.cfg.nodeId).isSome = true) →
    ∃ t : State, exec (.burstArrival p el b check) s = .next t ∧
      (t.chip.sel.origins[b.origin]).member = true ∧ (t.chip.sel.origins[b.origin]).serial = b.serial ∧
      (t.chip.sel.origins[b.origin]).silence = 0 ∧ t.chip.cad.rank[b.origin] = some b.cadence.rank ∧
      t.chip.cad.period = s.chip.cad.period ∧ t.chip.sys = s.chip.sys ∧ t.chip.cfg = s.chip.cfg ∧
      t.chip.tap = s.chip.tap ∧ t.mem = s.mem ∧
      ((s.chip.sel.origins[b.origin]).member = false → t.chip.sel.epoch = s.chip.sel.epoch + 1) ∧
      ((s.chip.sel.origins[b.origin]).member = true → (s.chip.sel.origins[b.origin]).serial = b.serial →
        t.chip.sel.epoch = s.chip.sel.epoch) ∧
      ((s.chip.sel.origins[b.origin]).member = true → (s.chip.sel.origins[b.origin]).serial ≠ b.serial →
        t.chip.sel.epoch = s.chip.sel.epoch + 2 ∧ (b.aux = .absent → t.chip.msg.delivered[b.origin] = none)) ∧
      ((s.chip.sel.origins[b.origin]).member = false → b.aux = .absent → b.answer = none → b.cadence.unsync = true →
        (∀ (r : RecordId) (i : InputId), (s.chip.recordAt r).slotInput ≠ some (b.origin, i)) →
        s.chip.sys.mode = .run → s.chip.ord.events.length < 32 →
        ∃ more : List Event, t.chip.ord.events = s.chip.ord.events ++
          { kind := .rosterJoin, period := s.chip.cad.period, subject := b.origin.val, value := b.serial } :: more)) ∧
  ∀ (p : Port) (el : Nat) (b : Burst) (check : Word) (s : State), s.chip.hearsGood p b check →
    b.origin ≠ s.chip.cfg.nodeId → s.chip.cad.state = .free → s.chip.cad.role = .follower → s.chip.cad.ref = none →
    s.chip.cad.openToSelf = false → s.chip.rng.joinQuiet ≠ 192 →
    (∀ o : NodeId, o ≠ s.chip.cfg.nodeId → (s.chip.sel.origins[o]).member = false) →
    ∃ t : State, exec (.burstArrival p el b check) s = .next t ∧
      (t.chip.sel.origins[b.origin]).member = true ∧ (t.chip.sel.origins[b.origin]).serial = b.serial ∧
      t.chip.sel.epoch = s.chip.sel.epoch + 1 ∧ t.chip.sys = s.chip.sys ∧ t.chip.cfg = s.chip.cfg ∧ t.mem = s.mem ∧
      (b.cadence.rank.val < 15 →
        t.chip.cad.rank = s.chip.cad.rank.set b.origin (some b.cadence.rank) ∧ t.chip.cad.ref = some b.origin ∧
        t.chip.cad.role = .follower ∧ t.chip.cad.state = .locking ∧ t.chip.cad.lockCount = 1 ∧
        t.chip.cad.period = b.period ∧
        (s.chip.sys.mode = .run → s.chip.ord.events.length < 31 →
          ∃ more : List Event, t.chip.ord.events = s.chip.ord.events ++
            { kind := .rosterJoin, period := s.chip.cad.period, subject := b.origin.val, value := b.serial } ::
            { kind := .timingChange, period := s.chip.cad.period, subject := b.origin.val, value := wordOf (nodeCode none) } ::
            more)) ∧
      (b.cadence.rank.val = 15 →
        t.chip.cad = { s.chip.cad with rank := s.chip.cad.rank.set b.origin (some b.cadence.rank) })

/-- A copy of the authority, a known peer that is no reference copy and not marked unsynchronised, at another node. An adoption that
has come due and has not been commanded yet is taken first (log entry 4); `old` is the Plan Store after it. A STAGED fragment
of the plan already adopted or already staged, and a CURRENT fragment of the current version, are ignored. Any other is stored in the
assembly of its kind, which starts afresh where version or E differ (a staged assembly whose end is due is emptied first, R18). A
complete staged assembly that meets R5 becomes the staged plan, effective at E, or for the next period where E has come, and discards
a pending repair; a complete current assembly that meets R5, of another version than the current plan's and with no plan staged,
becomes the pending repair for the next period; one that fails R5 is discarded. A known peer's copy that disagrees with the plan in force
for its period posts PLAN MISMATCH, unless one was posted for its origin within the last 96 periods; an unsynchronised or out-of-window
copy, and one that agrees, does not. The bodies of a plan's six fragments are its entries 0 to 15 as plan words, an empty one past the
last allotment, the most significant byte of each first (the model's choice, log entry 11), and eight bytes of zero; an assembly of
the plan's version that holds them, whatever the last eight bytes, gives back a plan that meets R5. -/
def Obligations.PlanFragmentsAndMismatch : Prop :=
  (∀ (p : Port) (el : Nat) (b : Burst) (check : Word) (f : Fragment) (s : State), s.chip.hearsPeer p b check →
    b.origin = s.chip.cfg.authority → b.cadence.unsync = false → b.aux = .fragment f → b.answer = none →
    let old := s.chip.adopt.pln
    let now := s.chip.cad.period
    let cap := s.chip.cfg.capacity
    ∃ t : State, exec (.burstArrival p el b check) s = .next t ∧ t.chip.tap = s.chip.tap ∧ t.chip.ret = s.chip.ret ∧
      t.chip.pre = s.chip.pre ∧ t.mem = s.mem ∧
      (∀ ef : Period, f.kind = .staged ef →
        let held := (f.version = old.current.version ∧ later ef now = false) ∨
          ∃ st : StagedPlan, old.staged = some st ∧ f.version = st.plan.version ∧ ef = st.e
        let a := storeFragment (if old.expiryDue = true then none else old.asmStaged) f.version ef f
        (held → t.chip.pln = { old with
          asmStaged := if old.expiryDue = true then none else old.asmStaged
          expiryDue := false, mismatch := t.chip.pln.mismatch }) ∧
        (¬ held → a.complete = false → t.chip.pln = { old with
          asmStaged := some a, expiryDue := false, mismatch := t.chip.pln.mismatch }) ∧
        (¬ held → a.complete = true → a.plan.ok cap = true → t.chip.pln = { old with
          asmStaged := none, expiryDue := false, repair := none, mismatch := t.chip.pln.mismatch
          staged := some { plan := a.plan, e := ef, effective := if later ef now = true then ef else now + 1,
                           announced := false } }) ∧
        (¬ held → a.complete = true → a.plan.ok cap = false → t.chip.pln = { old with
          asmStaged := none, expiryDue := false, mismatch := t.chip.pln.mismatch })) ∧
      (f.kind = .current →
        let a := storeFragment old.asmCurrent f.version 0 f
        (f.version = old.current.version → t.chip.pln = { old with mismatch := t.chip.pln.mismatch }) ∧
        (f.version ≠ old.current.version → a.complete = false → t.chip.pln = { old with
          asmCurrent := some a, mismatch := t.chip.pln.mismatch }) ∧
        (f.version ≠ old.current.version → a.complete = true → a.plan.ok cap = true → old.staged = none →
          t.chip.pln = { old with
            asmCurrent := none, repair := some { plan := a.plan, effective := now + 1 }
            mismatch := t.chip.pln.mismatch }) ∧
        (f.version ≠ old.current.version → a.complete = true → (a.plan.ok cap = false ∨ old.staged ≠ none) →
          t.chip.pln = { old with asmCurrent := none, mismatch := t.chip.pln.mismatch }))) ∧
  (∀ (x : Option Assembly) (v : Version) (ef : Period) (f : Fragment),
    (storeFragment x v ef f).version = v ∧ (storeFragment x v ef f).e = ef ∧
    (storeFragment x v ef f).marks[f.number] = true ∧ (storeFragment x v ef f).bodies[f.number] = f.body ∧
    (∀ (y : Assembly) (k : Fin 6), x = some y → y.version = v → y.e = ef → k ≠ f.number →
      (storeFragment x v ef f).marks[k] = y.marks[k] ∧ (storeFragment x v ef f).bodies[k] = y.bodies[k]) ∧
    (∀ k : Fin 6, (∀ y : Assembly, x = some y → y.version = v → y.e ≠ ef) → k ≠ f.number →
      (storeFragment x v ef f).marks[k] = false)) ∧
  (∀ (x : Plan) (f : Fin 6) (k : Fin 12),
    let i := 12 * f.val + k.val
    (i < 64 → (fragmentBody x f)[k] = lane (planWord x.allots[i / 4]?) (3 - i % 4)) ∧
    (64 ≤ i → (fragmentBody x f)[k] = 0)) ∧
  (∀ e : Option Allotment, showsAllotment (planWord e) e) ∧
  (∀ (cap : Nat) (x : Plan) (a : Assembly), cap ≤ 256 → x.ok cap = true → x.allots.Pairwise (fun u v => u.first < v.first) →
    a.version = x.version →
    (∀ (f : Fin 6) (k : Fin 12), 12 * f.val + k.val < 64 → (a.bodies[f])[k] = (fragmentBody x f)[k]) →
    a.plan = x) ∧
  ∀ (p : Port) (el : Nat) (b : Burst) (check : Word) (s : State), s.chip.hearsPeer p b check →
    b.aux = .absent → b.answer = none →
    let plan := s.chip.planAt b.period
    let age := s.chip.ageNow b el
    let beyond := earlier b.period s.chip.sel.next = false ∧ age < (s.chip.sel.delay : Int) * 64 ∧
      32 ≤ (b.period - s.chip.sel.next).toNat
    let wrong := b.version ≠ plan.version ∨ b.slots.length ≠ plan.total b.origin
    ∃ t : State, exec (.burstArrival p el b check) s = .next t ∧
      (b.cadence.unsync = false → ¬ beyond → wrong →
        quiet96 s.chip.pln.mismatch[b.origin] s.chip.cad.period = true →
        t.chip.pln = { s.chip.pln with mismatch := s.chip.pln.mismatch.set b.origin (some s.chip.cad.period) } ∧
        t.chip.ord = s.chip.ord.post
          { kind := .planMismatch, period := if s.chip.sys.mode = .run then s.chip.cad.period else 0
            subject := b.origin.val, value := wordOf b.version.toNat }) ∧
      (b.cadence.unsync = true ∨ beyond ∨ ¬ wrong ∨
          quiet96 s.chip.pln.mismatch[b.origin] s.chip.cad.period = false →
        t.chip.pln = s.chip.pln ∧ t.chip.ord = s.chip.ord)

/-- A reference copy at a follower that does not step on it, with the phase error of R42. Within pull-in and the first of its period: it
slews the next tick by at most one age unit, the silence count is 0, the decision is closed; in LOCKING the lock count rises and 48
give LOCKED, and from HOLDOVER and STEP_PENDING the state is LOCKED with the timer stopped. A second copy within pull-in of a period is
no further event: in LOCKED, LOCKING and STEP_PENDING nothing moves; in HOLDOVER, and while the decision is open, the copy itself
decides and gives LOCKED. Outside pull-in nothing slews: LOCKING starts
its count again, HOLDOVER and an open decision give STEP_PENDING with the timer running on or set to the limit, and otherwise the
state stays. Where the period's copy on the other port was within pull-in, a copy on a port with no path age, or outside pull-in,
makes its age that port's path age. A copy on a port with no path age while the other port has one is not judged: it moves, counts and
decides nothing and is only noted, and its age becomes its port's path age where the period's copy on the other port was within
pull-in. -/
def Obligations.ReferenceCopyIsJudged : Prop :=
  (∀ (p : Port) (el : Nat) (b : Burst) (check : Word) (err : Int) (s : State), s.chip.hearsReference p b check →
    s.chip.cad.errorIs p (s.chip.ageNow b el) err →
    let old := s.chip.cad
    ∃ t : State, exec (.burstArrival p el b check) s = .next t ∧
      t.chip.cad.period = old.period ∧ t.chip.cad.role = .follower ∧ t.chip.cad.ref = old.ref ∧
      t.chip.cad.rank = old.rank ∧ t.chip.tap = s.chip.tap ∧ t.mem = s.mem ∧
      (-8 ≤ err → err ≤ 8 → ¬ old.eventTaken b.period →
        t.chip.cad.tickMove = old.tickMove + err.sign ∧ t.chip.cad.silence = 0 ∧
        (old.state = .locked → t.chip.cad.state = .locked ∧ t.chip.cad.decisionOpen = false ∧
          t.chip.cad.holdover = old.holdover ∧ t.chip.cad.lockCount = old.lockCount) ∧
        (old.state = .locking → old.lockCount < 47 →
          t.chip.cad.state = .locking ∧ t.chip.cad.lockCount = old.lockCount + 1) ∧
        (old.state = .locking → 47 ≤ old.lockCount → t.chip.cad.state = .locked ∧ t.chip.cad.lockCount = 48) ∧
        (old.state = .holdover ∨ old.state = .stepPending →
          t.chip.cad.state = .locked ∧ t.chip.cad.holdover = none ∧ t.chip.cad.decisionOpen = false)) ∧
      (-8 ≤ err → err ≤ 8 → old.eventTaken b.period →
        (old.state = .locked ∨ old.state = .locking ∨ old.state = .stepPending ∧ old.decisionOpen = false →
          t.chip.cad.state = old.state ∧ t.chip.cad.tickMove = old.tickMove ∧ t.chip.cad.lockCount = old.lockCount ∧
          t.chip.cad.silence = old.silence ∧ t.chip.cad.holdover = old.holdover) ∧
        (old.state = .holdover ∨ old.state = .stepPending ∧ old.decisionOpen = true →
          t.chip.cad.state = .locked ∧ t.chip.cad.tickMove = old.tickMove + err.sign ∧ t.chip.cad.silence = 0 ∧
          t.chip.cad.holdover = none ∧ t.chip.cad.decisionOpen = false)) ∧
      (err < -8 ∨ 8 < err →
        t.chip.cad.tickMove = old.tickMove ∧ t.chip.cad.silence = old.silence ∧
        (old.state = .locking → t.chip.cad.state = .locking ∧ t.chip.cad.lockCount = 0) ∧
        (old.state = .holdover ∨ (old.state = .locked ∨ old.state = .stepPending) ∧ old.decisionOpen = true →
          t.chip.cad.state = .stepPending ∧ t.chip.cad.decisionOpen = false ∧
          t.chip.cad.holdover = some (old.holdover.getD s.chip.cfg.holdover)) ∧
        ((old.state = .locked ∨ old.state = .stepPending) → old.decisionOpen = false →
          t.chip.cad.state = old.state ∧ t.chip.cad.holdover = old.holdover)) ∧
      ∀ o : RefNote, old.refLog.find? (fun y => y.port = otherPort p && y.period = b.period) = some o →
        o.judged = .within → (old.pathAge.get p = none ∨ err < -8 ∨ 8 < err) →
        t.chip.cad.pathAge.get p = some (s.chip.ageNow b el)) ∧
  ∀ (p : Port) (el : Nat) (b : Burst) (check : Word) (a : Int) (s : State), s.chip.hearsReference p b check →
    s.chip.cad.pathAge.get p = none → s.chip.cad.pathAge.get (otherPort p) = some a →
    let old := s.chip.cad
    let age := s.chip.ageNow b el
    let fellow := old.refLog.find? (fun y => y.port = otherPort p && y.period = b.period)
    ∃ t : State, exec (.burstArrival p el b check) s = .next t ∧
      t.chip.cad = { old with
        refLog := { port := p, period := b.period, age := age, judged := .unjudged } :: old.refLog
        pathAge := t.chip.cad.pathAge, settled := t.chip.cad.settled } ∧
      ((∃ o : RefNote, fellow = some o ∧ o.judged = .within) → t.chip.cad.pathAge = old.pathAge.put p (some age)) ∧
      ((∀ o : RefNote, fellow = some o → o.judged ≠ .within) → t.chip.cad.pathAge = old.pathAge) ∧
      t.chip.tap = s.chip.tap ∧ t.mem = s.mem

/-- A copy of the reference at a follower in FREE, or with a step armed outside LOCKING, steps the part onto the copy's period n, where
no leave of another member and no end of join quiet is due with it: n is the present period, the state LOCKING with lock count 1 and
silence 0, the arriving port's path age 0 and the other's none, no settled age, no holdover timer, no step armed, nothing ordered for
the next tick; every entry of every peer's row is EMPTY, the next period to present is n − P and is presented, and every last and
maximum age is none; both send banks are clear and labelled for the new numbering and the return handover has started anew; no mismatch
period and no last taken period of another origin, and no ID clash period, is left, and no prior plan unless a repair that fell due at
the step is adopted at a fragment of the copy itself (log entries 4 and 12). Every record restarts C and Ct and every talk entry becomes
QUIET with no last owner, before the evaluation of n − P, which finds every peer missing, under the current plan; of a record nothing
else changes but by that evaluation, and its claim (with no change of presentation delay due before the step, and a P in 2 to
16, as StepKeepsQueueAndDelayBounds says of a part in RUN). A preamp effect period
keeps the ticks that remain to it. That the stepping copy's own entry is flushed with the store and its last age cleared with the
others is the model's choice (log entries 7 and 20), that the last lap age is cleared too (log entry 57), that the decision is closed
on a step from FREE (log entry 56), and the step counts as one of the remaining ticks of a preamp effect period (log entry 13).
Of the plans (at a copy with no fragment, after an adoption and an assembly's end that are due): the current plan stays; a staged plan
whose E lies more than 48,000 periods after n is dropped with the staged assembly, and the cell of its announcement fails with IN
PROGRESS; any other keeps its E and the assembly, and takes effect at E, or at n + 1 where E has come; a pending repair takes effect
at n (log entry 12). That the E which R20 tests is the staged plan's is the model's choice (log entry 46). -/
def Obligations.ReferenceCopyStepsTick : Prop :=
  ∀ (p : Port) (el : Nat) (b : Burst) (check : Word) (s : State), s.chip.hearsGood p b check → s.chip.knows b →
    s.chip.cad.role = .follower → s.chip.cad.ref = some b.origin →
    (s.chip.cad.state = .free ∨ s.chip.cad.stepArmed = true ∧ s.chip.cad.state ≠ .locking) →
    (s.chip.rng.joinQuiet ≠ 192 ∨ s.chip.cad.openToSelf = true) →
    (∀ o : NodeId, o ≠ b.origin → (s.chip.sel.origins[o]).member = true → (s.chip.sel.origins[o]).silence < 95) →
    let n := b.period
    let d := s.chip.cfg.blockLen
    ∃ t : State, exec (.burstArrival p el b check) s = .next t ∧
      t.chip.cad.period = n ∧ t.chip.cad.state = .locking ∧ t.chip.cad.role = .follower ∧
      t.chip.cad.ref = some b.origin ∧ t.chip.cad.lockCount = 1 ∧ t.chip.cad.silence = 0 ∧
      t.chip.cad.pathAge = PerPort.put ⟨none, none⟩ p (some 0) ∧
      (∀ o : NodeId, t.chip.cad.settled[o] = ⟨none, none⟩) ∧
      t.chip.cad.holdover = none ∧ t.chip.cad.stepArmed = false ∧ t.chip.cad.decisionOpen = false ∧
      t.chip.cad.tickMove = 0 ∧
      (∀ o : NodeId, o ≠ s.chip.cfg.nodeId → t.chip.sel.store[o] = Vector.replicate 32 {}) ∧
      t.chip.sel.next = n - BitVec.ofNat 32 t.chip.sel.delay + 1 ∧
      (∀ (o : NodeId) (q : Port), ((t.chip.sel.paths[o]).get q).lastAge = none ∧
        ((t.chip.sel.paths[o]).get q).maxAge = none) ∧
      (∀ q : Port, (t.chip.sel.lap.get q).lastAge = none ∧ (t.chip.sel.lap.get q).maxAge = none) ∧
      t.chip.tap.frozen = Fin.ofNat 2 (blockOf d n) ∧
      t.chip.tap.banks[t.chip.tap.frozen] = { block := blockOf d n } ∧
      t.chip.tap.banks[t.chip.tap.frozen + 1] = { block := blockOf d (n + BitVec.ofNat 32 d) } ∧
      t.chip.tap.shown = Vector.replicate 2 none ∧ t.chip.tap.eligible = some (n - BitVec.ofNat 32 t.chip.sel.delay) ∧
      (s.chip.pln.repair = none ∨ (∀ f : Fragment, b.aux ≠ .fragment f) → t.chip.pln.prior = none) ∧
      t.chip.rng.idClash = none ∧
      (s.chip.sel.deferred = false ∨ s.chip.sel.pending = none → 2 ≤ s.chip.sel.delay → s.chip.sel.delay ≤ 16 →
        ∃ v : Presentation,
        v.period = n - BitVec.ofNat 32 s.chip.sel.delay ∧ v.plan = s.chip.adopt.pln.current ∧
        (∀ o : NodeId, o ≠ s.chip.cfg.nodeId → v.rows[o] = none) ∧
        v.rows[s.chip.cfg.nodeId] = some [] ∧
        (∀ e : Fin 4, t.chip.ret.talk[e] =
          TalkEntry.update s.chip.ret.hold (v.view (s.chip.ret.talk[e]).binding)
            { s.chip.ret.talk[e] with state := .quiet, hold := none, owner := none }) ∧
        ∀ r : RecordId,
          let x := s.chip.recordAt r
          let y := t.chip.recordAt r
          let x0 : Record :=
            { x with main := { x.main with value := 0, target := 0 }
                     talkRamp := { x.talkRamp with value := 0, target := 0 } }
          let z := x0.evaluate s.chip.ret.attack s.chip.ret.release t.chip.ret.talk (v.view x.binding)
          y = { z.1 with claim := y.claim, slotInput := y.slotInput, claimDue := y.claimDue }) ∧
      ((∀ f : Fragment, b.aux ≠ .fragment f) →
        let old := s.chip.adopt.pln
        let asm := if old.expiryDue = true then none else old.asmStaged
        t.chip.pln.current = old.current ∧ t.chip.pln.repair = old.repair.map (fun r => { r with effective := n }) ∧
        (old.staged = none → t.chip.pln.staged = none ∧ t.chip.pln.asmStaged = asm) ∧
        ∀ st : StagedPlan, old.staged = some st →
          let far := later st.e n = true ∧ 48000 < (st.e - n).toNat
          (far → t.chip.pln.staged = none ∧ t.chip.pln.asmStaged = none) ∧
          (¬ far → t.chip.pln.asmStaged = asm ∧
            (later st.e n = true → t.chip.pln.staged = some { st with effective := st.e }) ∧
            (later st.e n = false → t.chip.pln.staged = some { st with effective := n + 1 })) ∧
          ∀ i : CellId, st.announced = true → (s.chip.cellAt i).state = .running →
            (s.chip.cellAt i).order.map (·.waits) = some .adoption →
            (∀ x ∈ s.chip.msg.outbox, ∀ r : RecordId, x.orig ≠ .cell i r) →
            (far → (t.chip.cellAt i).state = .failed ∧ (t.chip.cellAt i).reason = .inProgress) ∧
            (¬ far → t.chip.cellAt i = s.chip.cellAt i)) ∧
      (∀ (i : InputId) (st : PreStep) (e : Period), s.chip.pre.inputs[i].pending = some (st, e) →
        (atOrBefore e s.chip.cad.period = true → t.chip.pre.inputs[i].pending = none) ∧
        (atOrBefore e s.chip.cad.period = false →
          t.chip.pre.inputs[i].pending = some (st, n + (e - s.chip.cad.period - 1)))) ∧
      (∀ o : NodeId, o ≠ b.origin → t.chip.pln.mismatch[o] = none ∧ t.chip.msg.lastTaken[o] = none) ∧
      t.chip.sys = s.chip.sys ∧ t.chip.cfg = s.chip.cfg ∧ t.mem = s.mem

/-- A word-clock edge at a timing node with the WCK source, with no loss due (a loss due is taken first, log entry 6), changes the Cadence
Unit and the event queue alone. With a step armed the tick is moved to the edge: LOCKING with lock count 1, the timer stopped and the silence count 0 (the
model's reading, log entry 18). With none, an edge within pull-in slews the next tick by at most one age unit and sets the silence count to 0: LOCKED stays, the lock count
of LOCKING rises and at 48 gives LOCKED, and HOLDOVER, STEP_PENDING and FREE give LOCKED with the timer stopped. One outside pull-in
moves the tick of LOCKING to it with lock count 1; HOLDOVER and FREE give STEP_PENDING with STEP NEEDED, the timer running on or set to
the limit, and so does the first edge after an election from LOCKED or STEP_PENDING (log entry 19); any other leaves LOCKED and
STEP_PENDING as they are. That a move takes the place of a displacement ordered already (log entry 44), that CADENCE STATE is
posted only where the state changes, and that STEP NEEDED comes before it (log entry 59) are the model's reading. -/
def Obligations.WckEdgeIsJudged : Prop :=
  ∀ (phase : Int) (s : State), s.chip.sys.mode = .run → s.chip.cad.role = .timing → s.chip.cfg.source = .wck →
    s.chip.lossDue = false →
    let x := s.chip.cad
    let queue := s.chip.ord
    let entered (st : CadenceState) (q : OrderUnit) : OrderUnit :=
      q.post { kind := .cadenceState, period := x.period, subject := cadenceCode st, value := wordOf (nodeCode x.ref) }
    let asked : OrderUnit :=
      queue.post { kind := .stepNeeded, period := x.period, subject := nodeCode x.ref, value := wordOfInt phase }
    let leaves (cad : Cadence) (ord : OrderUnit) : Prop :=
      exec (.wckEdge phase) s = .next { s with chip := { s.chip with cad := cad, ord := ord } }
    let moved : Cadence :=
      { x with tickMove := phase, lockCount := 1, stepArmed := false, holdover := none, silence := 0, wckReturn := false
               state := .locking }
    let slewed : Cadence := { x with tickMove := x.tickMove + phase.sign, silence := 0, wckReturn := false }
    let pending : Cadence :=
      { x with wckReturn := false, decisionOpen := false, holdover := some (x.holdover.getD s.chip.cfg.holdover)
               state := .stepPending }
    (x.stepArmed = true →
      (x.state = .locking → leaves moved queue) ∧ (x.state ≠ .locking → leaves moved (entered .locking queue))) ∧
    (x.stepArmed = false → -8 ≤ phase → phase ≤ 8 →
      (x.state = .locked → leaves slewed queue) ∧
      (x.state = .locking → x.lockCount < 47 → leaves { slewed with lockCount := x.lockCount + 1 } queue) ∧
      (x.state = .locking → 47 ≤ x.lockCount →
        leaves { slewed with lockCount := 48, state := .locked } (entered .locked queue)) ∧
      (x.state = .holdover ∨ x.state = .stepPending ∨ x.state = .free →
        leaves { slewed with holdover := none, decisionOpen := false, state := .locked } (entered .locked queue))) ∧
    (x.stepArmed = false → (phase < -8 ∨ 8 < phase) →
      (x.state = .locking → leaves { x with tickMove := phase, lockCount := 1, wckReturn := false } queue) ∧
      (x.state = .holdover ∨ x.state = .free ∨ x.state = .locked ∧ x.wckReturn = true →
        leaves pending (entered .stepPending asked)) ∧
      (x.state = .stepPending → x.wckReturn = true → leaves pending asked) ∧
      (x.state = .locked ∨ x.state = .stepPending → x.wckReturn = false → leaves x queue))

/-- JOIN_QUIET_END opens the election to this node and holds it anew, and only the Cadence Unit and the event queue change. The election
gives the candidate of the lowest pair of rank and node id, or none. Where it gives the reference held, nothing changes. Otherwise
TIMING CHANGE is posted, path ages, lock count and the noted copies are cleared, and: with none, FOLLOWER and FREE, timer, decision and
step armed cleared; with this node, TIMING with the decision closed, LOCKED at the INTERNAL source, and at the WCK source a step
armed from FREE or LOCKING, else the next edge judged as a return; with another, FOLLOWER with the path ages of the settled ages for it,
FREE from FREE or LOCKING, else the decision open. CADENCE STATE follows a change of state. That the silence count is 0 after an
election of this node at the INTERNAL source is the model's reading (log entry 18). REFERENCE_LOST at a silence count of 24 takes LOCKED to HOLDOVER with the holdover limit, and
LOCKING to FREE with the lock count cleared, a timing node's step being armed. HOLDOVER_EXPIRY at 0 takes HOLDOVER and STEP_PENDING to
FREE. Each of the last two posts CADENCE STATE and changes nothing else; that an open decision stays open at the expiry is the model's
choice (log entry 56). -/
def Obligations.CadenceTimersChangeState : Prop :=
  (∀ s : State, s.chip.rng.joinQuiet = 192 → s.chip.cad.openToSelf = false →
    ∃ t : State, exec .joinQuietEnd s = .next t ∧ t.chip.cad.openToSelf = true ∧
      t.chip.cad.ref = (s.chip.onCad (fun x => { x with openToSelf := true })).elected ∧
      t.chip.cad.period = s.chip.cad.period ∧ t.chip.rng = s.chip.rng ∧ t.chip.sel = s.chip.sel ∧
      t.chip.pln = s.chip.pln ∧ t.chip.msg = s.chip.msg ∧ t.chip.ret = s.chip.ret ∧ t.chip.pre = s.chip.pre ∧
      t.chip.tap = s.chip.tap ∧ t.chip.ord.cells = s.chip.ord.cells ∧ t.mem = s.mem ∧
      t.chip = (s.chip.onCad (fun x => { x with openToSelf := true })).elect) ∧
  (∀ (c : Chip) (n : NodeId), c.elected = some n ↔ ∃ r : Fin 16, c.candidate n r ∧
    ∀ (m : NodeId) (q : Fin 16), c.candidate m q → r < q ∨ r = q ∧ n ≤ m) ∧
  (∀ c : Chip, (c.elected = none ↔ ∀ (n : NodeId) (r : Fin 16), ¬ c.candidate n r) ∧
    (c.elected = c.cad.ref → c.elect = c) ∧
    (c.elected ≠ c.cad.ref →
      let x := c.cad
      let posted := c.post .timingChange (nodeCode c.elected) (wordOf (nodeCode x.ref))
      let cleared : Cadence := { x with pathAge := ⟨none, none⟩, lockCount := 0, refLog := [], wckReturn := false }
      let kept (y : Cadence) : Chip := { posted with cad := y }
      let entered (y : Cadence) (st : CadenceState) : Chip :=
        if x.state = st then kept y
        else (kept { y with state := st }).post .cadenceState (cadenceCode st) (wordOf (nodeCode y.ref))
      (c.elected = none →
        c.elect = entered { cleared with
          role := .follower, ref := none, holdover := none, decisionOpen := false, stepArmed := false } .free) ∧
      (c.elected = some c.cfg.nodeId →
        let own : Cadence := { cleared with role := .timing, ref := some c.cfg.nodeId, decisionOpen := false }
        (c.cfg.source = .internal → c.elect = entered { own with holdover := none, silence := 0 } .locked) ∧
        (c.cfg.source = .wck → (x.state = .free ∨ x.state = .locking) → c.elect = kept { own with stepArmed := true }) ∧
        (c.cfg.source = .wck → x.state ≠ .free → x.state ≠ .locking → c.elect = kept { own with wckReturn := true })) ∧
      ∀ n : NodeId, c.elected = some n → n ≠ c.cfg.nodeId →
        let other : Cadence := { cleared with role := .follower, ref := some n, pathAge := x.settled[n] }
        (x.state = .free ∨ x.state = .locking → c.elect = entered other .free) ∧
        (x.state ≠ .free → x.state ≠ .locking → c.elect = kept { other with decisionOpen := true }))) ∧
  (∀ s : State, s.chip.cad.silence = 24 → s.chip.countsSilence = true → s.chip.cad.state = .locked →
    exec .referenceLost s = .next (s.onChip (fun c =>
      (c.onCad (fun x => { x with holdover := some c.cfg.holdover, state := .holdover })).post .cadenceState 3
        (wordOf (nodeCode c.cad.ref))))) ∧
  (∀ s : State, s.chip.cad.silence = 24 → s.chip.countsSilence = true → s.chip.cad.state = .locking →
    exec .referenceLost s = .next (s.onChip (fun c =>
      (c.onCad (fun x =>
        { x with lockCount := 0, state := .free
                 stepArmed := if c.cad.role = .timing then true else c.cad.stepArmed })).post .cadenceState 0
        (wordOf (nodeCode c.cad.ref))))) ∧
  ∀ s : State, s.chip.cad.holdover = some 0 → (s.chip.cad.state = .holdover ∨ s.chip.cad.state = .stepPending) →
    exec .holdoverExpiry s = .next (s.onChip (fun c =>
      (c.onCad (fun x => { x with holdover := none, state := .free })).post .cadenceState 0
        (wordOf (nodeCode c.cad.ref))))

/-- BURST_SENT: the oldest burst leaves the queue with the check word of the mode it started in, every bit inverted in CORRUPT; a
forwarded one is counted; the next starts in the present mode (when a burst starts to leave is the model's choice, log entry 66). The
check word is the code with initial value FFFFFFFFh, generator 04C11DB7h and inverted remainder over every other field of the burst, in
the order of R2's table; how each field is written in bits is free (log entry 14). A burst is good exactly with its check word. The expiries of a port: ACQUIRE_FAILED and a WINDOW_END with 8 or
more bad bursts enter QUARANTINE with the transmitter dark and their events; a better window starts anew; QUARANTINE_END follows
the light; DRILL_END restores NORMAL. Only that port and the event queue change. That a window and a good run keep their counts through
QUARANTINE is the model's choice (log entry 55). -/
def Obligations.PortEventsChangeState : Prop :=
  (∀ (p : Port) (e : TxEntry) (rest : List TxEntry) (m : TxMode) (s : State),
     (s.chip.portOf p).queue = e :: rest → (s.chip.portOf p).leaving = some m →
     exec (.burstSent p) s = .next (s.onChip (fun c => c.onPort p (fun x =>
       { x with
         queue := rest
         leaving := if rest = [] then none else some x.txMode
         sent := some { burst := e.burst, check := if m = .corrupt then ~~~ checkWord e.burst else checkWord e.burst }
         nForwarded := if e.forwarded then x.nForwarded + 1 else x.nForwarded })))) ∧
  (∀ b : Burst, checkWord b = crc32
    (Config.originBits b.origin ++ Config.serialBits b.serial ++ Config.periodBits b.period ++
      Config.versionBits b.version ++ Config.hopBits b.hop ++ Config.cadenceBits b.cadence ++ Config.portsBits b.ports ++
      Config.auxBits b.aux ++ Config.answerBits b.answer ++ Config.slotsBits b.slots)) ∧
  crc32 [] = ~~~ 0xFFFFFFFF#32 ∧
  (∀ (l : List Bool) (x : Bool),
    let r := ~~~ crc32 l
    crc32 (l ++ [x]) = ~~~ (if r.msb = x then r <<< 1 else (r <<< 1) ^^^ 0x04C11DB7#32)) ∧
  (∀ (b : Burst) (w : Word), goodCheck b w = true ↔ w = checkWord b) ∧
  ∀ (p : Port) (s : State),
    ((s.chip.portOf p).rx = .acquire → (s.chip.portOf p).acquireTimer = some 0 →
      exec (.acquireFailed p) s = .next (s.onChip (fun c => (c.onPort p (fun x =>
        { x with queue := [], leaving := none, rx := .quarantine, acquireTimer := none, quarTimer := some 4800,
                 nQuarantine := x.nQuarantine + 1 })).post .acquireFailed (portCode p)
                   (wordOf (s.chip.portOf p).goodRun)))) ∧
    ((s.chip.portOf p).rx = .up → (s.chip.portOf p).windowTicks = 48 → 8 ≤ (s.chip.portOf p).windowBad →
      exec (.windowEnd p) s = .next (s.onChip (fun c => (c.onPort p (fun x =>
        { x with queue := [], leaving := none, rx := .quarantine, acquireTimer := none, quarTimer := some 4800,
                 nQuarantine := x.nQuarantine + 1 })).post .quarantine (portCode p)
                   (wordOf (s.chip.portOf p).windowBad)))) ∧
    ((s.chip.portOf p).rx = .up → (s.chip.portOf p).windowTicks = 48 → (s.chip.portOf p).windowBad < 8 →
      exec (.windowEnd p) s = .next (s.onChip (fun c => c.onPort p (fun x =>
        { x with windowTicks := 0, windowBad := 0 })))) ∧
    ((s.chip.portOf p).rx = .quarantine → (s.chip.portOf p).quarTimer = some 0 → (s.chip.portOf p).light = true →
      exec (.quarantineEnd p) s = .next (s.onChip (fun c => (c.onPort p (fun x =>
        { x with quarTimer := none, rx := .acquire, goodRun := 0, acquireTimer := some 4800 })).post .portState
          (portCode p) 1))) ∧
    ((s.chip.portOf p).rx = .quarantine → (s.chip.portOf p).quarTimer = some 0 → (s.chip.portOf p).light = false →
      exec (.quarantineEnd p) s = .next (s.onChip (fun c => (c.onPort p (fun x =>
        { x with quarTimer := none, rx := .dark })).post .portState (portCode p) 0))) ∧
    ((s.chip.portOf p).drill = 0 → (s.chip.portOf p).txMode ≠ .normal →
      exec (.drillEnd p) s = .next (s.onChip (fun c => c.onPort p (fun x => { x with txMode := .normal }))))

/-- ROSTER_LEAVE of a member whose roster silence has reached 96 is torn down in every block: no member, the epoch one higher, an
empty row, both path records at reset, the out-of-window count 0 and no reports (presence and missing periods stay, and by the model's
reading the recorded serial and the roster silence, log entry 35),
no rank and no settled ages with a new election (as CadenceTimersChangeState gives it), no mismatch period, no claim of its own and none
on its inputs, no message to it, toggle 0, no delivery record, no answer for it. In RUN with room for one event ROSTER LEAVE with the
recorded serial is the first one posted (before the other blocks' events by the model's choice, log entry 59), and a cell whose message
to the leaver was in the outbox ends FAILED with UNANSWERED. -/
def Obligations.RosterLeaveTearsDown : Prop :=
  ∀ (o : NodeId) (s : State), o ≠ s.chip.cfg.nodeId → (s.chip.sel.origins[o]).member = true →
    96 ≤ (s.chip.sel.origins[o]).silence →
    ∃ t : State, exec (.rosterLeave o) s = .next t ∧
      (t.chip.sel.origins[o]).member = false ∧ t.chip.sel.epoch = s.chip.sel.epoch + 1 ∧
      t.chip.sel.store[o] = Vector.replicate 32 {} ∧ t.chip.sel.paths[o] = ⟨{}, {}⟩ ∧
      t.chip.sel.origins = s.chip.sel.origins.set o
        { s.chip.sel.origins[o] with member := false, outside := 0, cadence := none, ports := none } ∧
      (∀ q : NodeId, q ≠ o → t.chip.sel.store[q] = s.chip.sel.store[q] ∧ t.chip.sel.paths[q] = s.chip.sel.paths[q]) ∧
      t.chip.sel.ring = t.chip.ringOf ∧
      t.chip.cad =
        (({ s.chip with sel := t.chip.sel } : Chip).onCad (fun x =>
          { x with rank := x.rank.set o none, settled := x.settled.set o ⟨none, none⟩ })).elect.cad ∧
      (s.chip.sys.mode = .run → s.chip.ord.events.length < 32 →
        ∃ more : List Event, t.chip.ord.events = s.chip.ord.events ++
          { kind := .rosterLeave, period := s.chip.cad.period, subject := o.val
            value := (s.chip.sel.origins[o]).serial } :: more) ∧
      (∀ (e : OutEntry) (i : CellId) (r : RecordId), e ∈ s.chip.msg.outbox → e.dest = o → e.orig = .cell i r →
        (t.chip.cellAt i).state = .failed ∧ (t.chip.cellAt i).reason = .unanswered ∧
        (t.chip.cellAt i).tag = (s.chip.cellAt i).tag ∧ (t.chip.cellAt i).code = (s.chip.cellAt i).code) ∧
      (∀ i : CellId, (∀ (e : OutEntry) (r : RecordId), e ∈ s.chip.msg.outbox → e.dest = o → e.orig ≠ .cell i r) →
        t.chip.cellAt i = s.chip.cellAt i) ∧
      t.chip.msg.outbox = s.chip.msg.outbox.filter (fun e => e.dest ≠ o) ∧
      t.chip.cad.rank[o] = none ∧ t.chip.cad.settled[o] = ⟨none, none⟩ ∧ t.chip.pln.mismatch[o] = none ∧
      (∀ i : InputId, t.chip.pre.inputs[i].claimant ≠ some o) ∧
      (∀ (r : RecordId) (i : InputId), (t.chip.recordAt r).slotInput = some (o, i) → (t.chip.recordAt r).claim = .none) ∧
      t.chip.msg.toggle[o] = false ∧ t.chip.msg.delivered[o] = none ∧
      (∀ a ∈ t.chip.msg.answers, a.target ≠ o) ∧ t.chip.msg.lastTaken[o] = none ∧
      t.chip.rng = s.chip.rng ∧ t.chip.tap = s.chip.tap ∧ t.mem = s.mem

/-- PATH_SILENCE_END sets the hop distance of a path that has been silent for 96 ticks to none; LAP_SILENCE_END evaluates the ring
state and posts a change with the number of members. Nothing else changes. -/
def Obligations.SilenceEndsClearHopAndRing : Prop :=
  (∀ (o : NodeId) (p : Port) (s : State), 96 ≤ ((s.chip.sel.paths[o]).get p).silence →
    exec (.pathSilenceEnd o p) s = .next (s.onChip (fun c => c.onSel (fun x =>
      { x with paths := upd x.paths o (fun v => v.upd p (fun q => { q with hop := none })) })))) ∧
  ∀ (p : Port) (s : State), 96 ≤ (s.chip.sel.lap.get p).silence → s.chip.ringOf ≠ s.chip.sel.ring →
    exec (.lapSilenceEnd p) s = .next (s.onChip (fun c =>
      (c.onSel (fun x => { x with ring := c.ringOf })).post .ringState (ringCode c.ringOf) (wordOf c.memberCount)))

/-! ## Messages -/

/-- A message of a known peer for this node, in the first copy of its burst, is answered. One with the toggle of the last delivery is a
repeat: its stored answer is queued again, and no handler acts. Any other is offered to its handler, whose verdict is queued as answer
with the echo, and recorded as delivered unless it is BUSY. A message for another node, or in a second copy of the burst, is not used.
The handler of a DROP from node d is the claim logic: each record whose slot input is d and the input and that is HELD or ASKING becomes
NONE, CLAIM LOST is posted for each that was HELD, nothing else changes, and the verdict is TAKEN with their number. That they are
taken in ascending number is the model's choice (log entry 51). The handlers of CLAIM, RELEASE and GAIN are
StageAnswersClaimReleaseAndGain. -/
def Obligations.MessageIsDeliveredOnce : Prop :=
  (∀ (p : Port) (el : Nat) (b : Burst) (check : Word) (m : Message) (s : State), s.chip.hearsPeer p b check →
    b.aux = .message m → b.answer = none →
    ∃ t : State, exec (.burstArrival p el b check) s = .next t ∧
      t.chip.msg.lastTaken = s.chip.msg.lastTaken.set b.origin (some b.period) ∧
      (m.dest = s.chip.cfg.nodeId → s.chip.msg.lastTaken[b.origin] ≠ some b.period →
        (∀ a : Answer, s.chip.msg.delivered[b.origin] = some a → a.toggle = m.toggle →
          t.chip.msg.answers = queueAnswer a s.chip.msg.answers ∧ t.chip.msg.delivered = s.chip.msg.delivered ∧
          t.chip.pre = s.chip.pre ∧ t.chip.ret = s.chip.ret) ∧
        ((∀ a : Answer, s.chip.msg.delivered[b.origin] = some a → a.toggle ≠ m.toggle) →
          let v := (s.chip.offer b.origin m.body).2
          let a : Answer :=
            { target := b.origin, toggle := m.toggle, echoKind := m.body.kind, echoInput := m.body.input, verdict := v }
          t.chip.msg.answers = queueAnswer a s.chip.msg.answers ∧
          (v = .busy → t.chip.msg.delivered = s.chip.msg.delivered) ∧
          (v ≠ .busy → t.chip.msg.delivered = s.chip.msg.delivered.set b.origin (some a)) ∧
          t.chip.pre = (s.chip.offer b.origin m.body).1.pre ∧ t.chip.ret = (s.chip.offer b.origin m.body).1.ret)) ∧
      (m.dest ≠ s.chip.cfg.nodeId ∨ s.chip.msg.lastTaken[b.origin] = some b.period →
        t.chip.msg.answers = s.chip.msg.answers ∧ t.chip.msg.delivered = s.chip.msg.delivered ∧
        t.chip.pre = s.chip.pre ∧ t.chip.ret = s.chip.ret) ∧
      t.chip.msg.outbox = s.chip.msg.outbox ∧ t.chip.msg.toggle = s.chip.msg.toggle ∧
      t.chip.ord.cells = s.chip.ord.cells ∧ t.chip.tap = s.chip.tap ∧ t.mem = s.mem) ∧
  ∀ (d : NodeId) (i : InputId) (c : Chip),
    let lost := (List.finRange 128).filter (fun r =>
      (c.recordAt r).slotInput = some (d, i) ∧ (c.recordAt r).claim = .held)
    ∃ t : Chip, c.offer d (.drop i) = (t, .taken (Fin.ofNat 256 lost.length)) ∧ lost.length < 256 ∧
      (∀ r : RecordId,
        ((c.recordAt r).slotInput = some (d, i) → ((c.recordAt r).claim = .held ∨ (c.recordAt r).claim = .asking) →
          t.recordAt r = { c.recordAt r with claim := .none }) ∧
        ((c.recordAt r).slotInput ≠ some (d, i) ∨ (c.recordAt r).claim = .none ∨ (c.recordAt r).claim = .denied →
          t.recordAt r = c.recordAt r)) ∧
      t = { c with
        ret := { c.ret with records := t.ret.records }
        ord := (lost.foldl (fun x r => x.post .claimLost r.val (wordOf (d.val * 256 + i.val))) c).ord }

/-- An answer of a known peer for this node, in the first copy of its burst, is matched against the one entry to that peer that is
IN_FLIGHT or BACKOFF. With its toggle and echo: TAKEN removes the entry and flips the send toggle, completes an originating cell DONE
with the value, and makes a record that still asks for that input HELD, REFUSED making it DENIED, completing an originating cell FAILED
with the reason and the value, and ending the claim of its record, with CLAIM LOST, where it is a GAIN refused NOT HOLDER. For a record
that asks for that input no longer the outcome is stale: the entry goes and the toggle flips, no record changes, and a TAKEN sends a
RELEASE unless a record is HELD or ASKING on the input (the record of the outcome among them, section 9.5), or posts MESSAGE FAILED where
the outbox has no room for it. A BUSY at IN_FLIGHT backs the entry off for 48 ticks, or, as the eighth, ends the message with MESSAGE
FAILED and the toggle left, a cell ending FAILED with BUSY and a record that still asks becoming NONE; a BUSY at BACKOFF is ignored. With
another toggle it is ignored. With the toggle and another echo the entry is resynchronised once. -/
def Obligations.AnswerEndsMessage : Prop :=
  ∀ (p : Port) (el : Nat) (b : Burst) (check : Word) (x : Answer) (front back : List OutEntry) (e : OutEntry) (s : State),
    s.chip.hearsPeer p b check → b.aux = .absent → b.answer = some x → x.target = s.chip.cfg.nodeId →
    s.chip.msg.lastTaken[b.origin] ≠ some b.period → s.chip.msg.outbox = front ++ e :: back →
    (∀ y ∈ front, y.dest = b.origin → y.state = .waiting) → e.dest = b.origin → e.state ≠ .waiting →
    let echoed := x.echoKind = e.body.kind ∧ x.echoInput = e.body.input
    let stale (r : RecordId) : Prop :=
      (s.chip.recordAt r).claim ≠ .asking ∨ (s.chip.recordAt r).slotInput ≠ some (b.origin, e.body.input)
    let used : Prop := ∃ q : RecordId, (s.chip.recordAt q).slotInput = some (b.origin, e.body.input) ∧
      ((s.chip.recordAt q).claim = .held ∨ (s.chip.recordAt q).claim = .asking)
    let failed (t : State) (value : Nat) : Prop :=
      s.chip.sys.mode = .run → s.chip.ord.events.length < 31 → ∃ before after : List Event,
        t.chip.ord.events = s.chip.ord.events ++ before ++
          { kind := .messageFailed, period := s.chip.cad.period, subject := b.origin.val, value := wordOf value } :: after
    ∃ t : State, exec (.burstArrival p el b check) s = .next t ∧ t.chip.tap = s.chip.tap ∧ t.mem = s.mem ∧
      (∀ v : Fin 256, e.toggle = some x.toggle → echoed → x.verdict = .taken v →
        (e.orig = .nobody →
          t.chip.msg.outbox = front ++ back ∧ t.chip.ret = s.chip.ret ∧ t.chip.ord.cells = s.chip.ord.cells ∧
          t.chip.msg.toggle = upd s.chip.msg.toggle b.origin (fun u => !u)) ∧
        (∀ (i : CellId) (r : RecordId), e.orig = .cell i r →
          t.chip.msg.outbox = front ++ back ∧ t.chip.ret = s.chip.ret ∧
          t.chip.msg.toggle = upd s.chip.msg.toggle b.origin (fun u => !u) ∧
          (t.chip.cellAt i).state = .done ∧ (t.chip.cellAt i).reason = .none ∧ (t.chip.cellAt i).value = wordOf v.val) ∧
        (∀ r : RecordId, e.orig = .record r → (s.chip.recordAt r).claim = .asking →
          (s.chip.recordAt r).slotInput = some (b.origin, e.body.input) →
          t.chip.msg.outbox = front ++ back ∧ t.chip.msg.toggle = upd s.chip.msg.toggle b.origin (fun u => !u) ∧
          t.chip.ret = (s.chip.onRecord r (fun y => { y with claim := .held })).ret ∧ t.chip.ord.cells = s.chip.ord.cells) ∧
        (∀ r : RecordId, e.orig = .record r → stale r →
          t.chip.msg.toggle = upd s.chip.msg.toggle b.origin (fun u => !u) ∧ t.chip.ret = s.chip.ret ∧
          t.chip.ord.cells = s.chip.ord.cells ∧
          (used → t.chip.msg.outbox = front ++ back) ∧
          (¬ used → front.length + back.length < 16 → t.chip.msg.outbox = front ++ back ++
            [{ dest := b.origin, body := .release e.body.input, toggle := none, attempts := 0, busy := 0, state := .waiting,
               deadline := 0, resynced := false, orig := .nobody }]) ∧
          (¬ used → 16 ≤ front.length + back.length → t.chip.msg.outbox = front ++ back ∧
            failed t (65536 + e.body.input.val * 256 + 7)))) ∧
      (∀ (why : RefuseReason) (v : Fin 256) (r : RecordId), e.toggle = some x.toggle → echoed → x.verdict = .refused why v →
        e.orig = .record r → (s.chip.recordAt r).claim = .asking →
        (s.chip.recordAt r).slotInput = some (b.origin, e.body.input) →
        t.chip.msg.outbox = front ++ back ∧ t.chip.msg.toggle = upd s.chip.msg.toggle b.origin (fun u => !u) ∧
        t.chip.ret = (s.chip.onRecord r (fun y => { y with claim := .denied })).ret ∧
        t.chip.ord.cells = s.chip.ord.cells) ∧
      (∀ (why : RefuseReason) (v : Fin 256) (r : RecordId), e.toggle = some x.toggle → echoed → x.verdict = .refused why v →
        e.orig = .record r → stale r →
        t.chip.msg.outbox = front ++ back ∧ t.chip.msg.toggle = upd s.chip.msg.toggle b.origin (fun u => !u) ∧
        t.chip.ret = s.chip.ret ∧ t.chip.ord.cells = s.chip.ord.cells) ∧
      (∀ (why : RefuseReason) (v : Fin 256), e.toggle = some x.toggle → echoed → x.verdict = .refused why v →
        (e.orig = .nobody ∨ ∃ (i : CellId) (r : RecordId), e.orig = .cell i r) →
        t.chip.msg.outbox = front ++ back ∧ t.chip.msg.toggle = upd s.chip.msg.toggle b.origin (fun u => !u) ∧
        (e.orig = .nobody → t.chip.ret = s.chip.ret ∧ t.chip.ord.cells = s.chip.ord.cells) ∧
        ∀ (i : CellId) (r : RecordId), e.orig = .cell i r →
          let lost := e.body.kind = .gain ∧ why = .notHolder ∧ (s.chip.recordAt r).claim = .held ∧
            (s.chip.recordAt r).slotInput = some (b.origin, e.body.input)
          (t.chip.cellAt i).state = .failed ∧ (t.chip.cellAt i).value = wordOf v.val ∧
          (why = .held → (t.chip.cellAt i).reason = .held) ∧ (why = .noInput → (t.chip.cellAt i).reason = .noInput) ∧
          (why = .notHolder → (t.chip.cellAt i).reason = .notHolder) ∧
          (¬ lost → t.chip.ret = s.chip.ret) ∧
          (lost → t.chip.recordAt r = { s.chip.recordAt r with claim := .none } ∧
            (∀ q : RecordId, q ≠ r → t.chip.recordAt q = s.chip.recordAt q) ∧
            (s.chip.sys.mode = .run → s.chip.ord.events.length < 31 → ∃ before after : List Event,
              t.chip.ord.events = s.chip.ord.events ++ before ++
                { kind := .claimLost, period := s.chip.cad.period, subject := r.val
                  value := wordOf (b.origin.val * 256 + e.body.input.val) } :: after))) ∧
      (e.toggle = some x.toggle → echoed → x.verdict = .busy →
        t.chip.msg.toggle = s.chip.msg.toggle ∧
        (e.state = .inFlight → e.busy < 7 → t.chip.msg.outbox = front ++
          { e with busy := e.busy + 1, state := .backoff, deadline := 48, attempts := 0 } :: back) ∧
        (e.state = .inFlight → 7 ≤ e.busy → t.chip.msg.outbox = front ++ back ∧
          failed t (msgCode e.body.kind * 65536 + e.body.input.val * 256 + 10) ∧
          (e.orig = .nobody → t.chip.ret = s.chip.ret ∧ t.chip.ord.cells = s.chip.ord.cells) ∧
          (∀ (i : CellId) (r : RecordId), e.orig = .cell i r → t.chip.ret = s.chip.ret ∧
            (t.chip.cellAt i).state = .failed ∧ (t.chip.cellAt i).reason = .busy ∧
            ∀ j : CellId, j ≠ i → t.chip.cellAt j = s.chip.cellAt j) ∧
          ∀ r : RecordId, e.orig = .record r → t.chip.ord.cells = s.chip.ord.cells ∧
            (stale r → t.chip.ret = s.chip.ret) ∧
            (¬ stale r → t.chip.ret = (s.chip.onRecord r (fun y => { y with claim := .none })).ret)) ∧
        (e.state = .backoff → t.chip.msg.outbox = s.chip.msg.outbox)) ∧
      (e.toggle ≠ some x.toggle → t.chip.msg.outbox = s.chip.msg.outbox ∧ t.chip.msg.toggle = s.chip.msg.toggle) ∧
      (e.toggle = some x.toggle → ¬ echoed →
        (e.resynced = true → t.chip.msg.outbox = s.chip.msg.outbox ∧ t.chip.msg.toggle = s.chip.msg.toggle) ∧
        (e.resynced = false →
          t.chip.msg.toggle = upd s.chip.msg.toggle b.origin (fun u => !u) ∧
          t.chip.msg.outbox = front ++
            { e with toggle := some (!s.chip.msg.toggle[b.origin]), resynced := true, attempts := 0, state := .inFlight,
                     deadline := 0 } :: back))

/-- DEADLINE_REACHED after the third attempt ends the message UNANSWERED: the entry is removed, MESSAGE FAILED is posted, and an
originating cell completes FAILED, a record that still asks for that input becoming NONE and any other staying. After the first or
second attempt the entry is left to be sent again. BACKOFF_EXPIRED of a self-addressed GAIN offers it to the local handler again: held
by this node and with room in the preamp queue it is TAKEN, the entry is removed, the request is queued, and the originating cell
completes DONE with the queued step; with the queue full it backs off for 48 ticks more, or, as the eighth BUSY, the entry is removed
and the cell completes FAILED with BUSY. An entry to a peer is left to be sent again. -/
def Obligations.OutboxTimersEndOrResend : Prop :=
  ((∀ (k : Fin 16) (e : OutEntry) (s : State), s.chip.msg.outbox[k.val]? = some e → e.state = .inFlight → e.deadline = 0 →
     3 ≤ e.attempts → e.orig = .nobody →
     exec (.deadlineReached k) s = .next (s.onChip (fun c =>
       (c.withOutbox (c.msg.outbox.eraseIdx k.val)).post .messageFailed e.dest.val
         (wordOf (msgCode e.body.kind * 65536 + e.body.input.val * 256 + 11))))) ∧
   (∀ (k : Fin 16) (e : OutEntry) (i : CellId) (r : RecordId) (s : State), s.chip.msg.outbox[k.val]? = some e →
     e.state = .inFlight → e.deadline = 0 → 3 ≤ e.attempts → e.orig = .cell i r →
     ∃ t : State, exec (.deadlineReached k) s = .next t ∧ t.chip.msg.outbox = s.chip.msg.outbox.eraseIdx k.val ∧
       t.chip.msg.toggle = s.chip.msg.toggle ∧ (t.chip.cellAt i).state = .failed ∧
       (t.chip.cellAt i).reason = .unanswered ∧ t.chip.ret = s.chip.ret ∧
       (∀ j : CellId, j ≠ i → t.chip.cellAt j = s.chip.cellAt j) ∧
       (s.chip.sys.mode = .run → s.chip.ord.events.length < 32 → ∃ after : List Event,
         t.chip.ord.events = s.chip.ord.events ++
           { kind := .messageFailed, period := s.chip.cad.period, subject := e.dest.val
             value := wordOf (msgCode e.body.kind * 65536 + e.body.input.val * 256 + 11) } :: after)) ∧
   (∀ (k : Fin 16) (e : OutEntry) (r : RecordId) (s : State), s.chip.msg.outbox[k.val]? = some e →
     e.state = .inFlight → e.deadline = 0 → 3 ≤ e.attempts → e.orig = .record r →
     let ended (c : Chip) : Chip := (c.withOutbox (c.msg.outbox.eraseIdx k.val)).post .messageFailed e.dest.val
       (wordOf (msgCode e.body.kind * 65536 + e.body.input.val * 256 + 11))
     ((s.chip.recordAt r).claim = .asking → (s.chip.recordAt r).slotInput = some (e.dest, e.body.input) →
       exec (.deadlineReached k) s = .next (s.onChip (fun c => (ended c).onRecord r (fun x => { x with claim := .none })))) ∧
     ((s.chip.recordAt r).claim ≠ .asking ∨ (s.chip.recordAt r).slotInput ≠ some (e.dest, e.body.input) →
       exec (.deadlineReached k) s = .next (s.onChip ended))) ∧
   ∀ (k : Fin 16) (e : OutEntry) (s : State), s.chip.msg.outbox[k.val]? = some e → e.state = .inFlight → e.deadline = 0 →
     e.attempts < 3 → e.dest ≠ s.chip.cfg.nodeId →
     exec (.deadlineReached k) s = .next s ∧ e.ready s.chip.msg.outbox s.chip.cfg.nodeId = true) ∧
  (∀ (k : Fin 16) (e : OutEntry) (p : InputId) (st : Fin 64) (i : CellId) (r : RecordId) (s : State),
    s.chip.msg.outbox[k.val]? = some e → e.state = .backoff → e.deadline = 0 → e.dest = s.chip.cfg.nodeId →
    e.body = .gain p st → e.orig = .cell i r → s.chip.existing p →
    s.chip.pre.inputs[p].claimant = some s.chip.cfg.nodeId → s.chip.pre.queue.length < 8 →
    ∃ t : State, exec (.backoffExpired k) s = .next t ∧ t.chip.msg.outbox = s.chip.msg.outbox.eraseIdx k.val ∧
      t.chip.pre.queued p = true ∧ t.chip.pre.inputs[p].requester = some (.node s.chip.cfg.nodeId) ∧
      (t.chip.cellAt i).state = .done ∧ (t.chip.cellAt i).value = wordOf (min st.val 60) ∧ t.mem = s.mem) ∧
  (∀ (k : Fin 16) (e : OutEntry) (p : InputId) (st : Fin 64) (i : CellId) (r : RecordId) (s : State),
    s.chip.msg.outbox[k.val]? = some e → e.state = .backoff → e.deadline = 0 → e.dest = s.chip.cfg.nodeId →
    e.body = .gain p st → e.orig = .cell i r → s.chip.existing p →
    s.chip.pre.inputs[p].claimant = some s.chip.cfg.nodeId → s.chip.pre.queued p = false → 8 ≤ s.chip.pre.queue.length →
    (e.busy < 7 → exec (.backoffExpired k) s = .next (s.onChip (fun c =>
      c.withOutbox (c.msg.outbox.set k.val { e with busy := e.busy + 1, deadline := 48 })))) ∧
    (7 ≤ e.busy → ∃ t : State, exec (.backoffExpired k) s = .next t ∧
      t.chip.msg.outbox = s.chip.msg.outbox.eraseIdx k.val ∧ t.chip.pre = s.chip.pre ∧ t.chip.ret = s.chip.ret ∧
      (t.chip.cellAt i).state = .failed ∧ (t.chip.cellAt i).reason = .busy ∧ t.mem = s.mem)) ∧
  ∀ (k : Fin 16) (e : OutEntry) (s : State), s.chip.msg.outbox[k.val]? = some e → e.state = .backoff → e.deadline = 0 →
    e.dest ≠ s.chip.cfg.nodeId →
    exec (.backoffExpired k) s = .next s ∧ e.ready s.chip.msg.outbox s.chip.cfg.nodeId = true

/-! ## The preamp port -/

/-- TRANSACTION_START with the port IDLE takes the oldest queue entry whose input is not SETTLING, with attempt 1, and sends its
two characters, each with even parity and its stop bit at rest; the sweep then tops the queue up to 4 or leaves no mark. With no sweep
mark, or with 4 entries left, nothing is admitted; a single mark, on an input not queued, is admitted with its initial step for LOCAL
and cleared. STEP_CHARACTER_SENT then awaits the answer with the timer at 8, with attempt 2 from RETRY; that the timer is 0 until then is
the model's choice (log entry 65). -/
def Obligations.TransactionSendsOldestEntry : Prop :=
  let taken (e : PreRequest) (u : PreampUnit) : PreampUnit :=
    { u with
      queue := u.queue.eraseP (fun x => x.input = e.input), port := .sending
      trans := some { input := e.input, step := e.step, attempt := 1, timer := 0 }
      line := [Character.sent (BitVec.ofNat 8 (128 + e.input.val)), Character.sent (BitVec.ofNat 8 e.step.val)] }
  (∀ (e : PreRequest) (s : State), s.chip.pre.port = .idle →
    s.chip.pre.queue.find? (fun x => s.chip.pre.inputs[x.input].state ≠ .settling) = some e →
    ((∀ i : InputId, s.chip.pre.inputs[i].sweep = false) ∨ 4 ≤ (taken e s.chip.pre).queue.length →
      exec .transactionStart s = .next (s.onChip (fun c => { c with pre := taken e c.pre }))) ∧
    (∀ i : InputId, (∀ j : InputId, s.chip.pre.inputs[j].sweep = true ↔ j = i) → (taken e s.chip.pre).queue.length < 4 →
      (∀ x ∈ (taken e s.chip.pre).queue, x.input ≠ i) →
      exec .transactionStart s = .next (s.onChip (fun c =>
        { c with pre := { taken e c.pre with
            queue := (taken e c.pre).queue ++ [{ input := i, step := c.cfg.initial[i], who := .loc }]
            inputs := upd c.pre.inputs i (fun x => { x with requester := some .loc, sweep := false }) } }))) ∧
    ∃ t : State, exec .transactionStart s = .next t ∧ t.chip.pre.port = .sending ∧
      t.chip.pre.trans = (taken e s.chip.pre).trans ∧ t.chip.pre.line = (taken e s.chip.pre).line ∧
      (4 ≤ t.chip.pre.queue.length ∨ ∀ i : InputId, t.chip.pre.inputs[i].sweep = false)) ∧
  (∀ b : Byte, (Character.sent b).data = b ∧ (Character.sent b).stop = true ∧
    (ones b + (if (Character.sent b).parity = true then 1 else 0)) % 2 = 0) ∧
  (∀ x : Character, x.frame.length = 11 ∧ x.frame[0]? = some false ∧ (∀ k : Nat, k < 8 → x.frame[k + 1]? = some (x.data.getLsbD k)) ∧
    x.frame[9]? = some x.parity ∧ x.frame[10]? = some x.stop) ∧
  (∀ (t : Transaction) (s : State), s.chip.pre.port = .sending → s.chip.pre.trans = some t →
    exec .stepCharacterSent s = .next (s.onChip (fun c =>
      { c with pre := { c.pre with port := .awaiting, trans := some { t with timer := 8 } } }))) ∧
  ∀ (t : Transaction) (s : State), s.chip.pre.port = .retry → s.chip.pre.trans = some t →
    exec .stepCharacterSent s = .next (s.onChip (fun c =>
      { c with pre := { c.pre with port := .awaiting, trans := some { t with attempt := 2, timer := 8 } } }))

/-- CHARACTER_RECEIVED in AWAITING: a good character equal to the step is the echo. The step is confirmed and pending with effect
period equal to the period of the next tick plus the settle delay, the input is SETTLING, and the port returns to IDLE; in any
other port state a character is discarded. SETTLE_END at the effect period: the pending step becomes the stamp step, and the
input is READY. A failed attempt, by ANSWER_TIMER_EXPIRY or by a CHARACTER_RECEIVED that is no echo: the first sends both
characters again from RETRY; the second makes the input FAULTED with its steps UNKNOWN, posts PREAMP FAULT, and ends the
transaction. That a character which comes after the TICK that brought the answer timer to 0 and before ANSWER_TIMER_EXPIRY is still the
answer is the model's choice (log entry 61), as is what the timer holds in RETRY (log entry 65); the line's record is the model's own
(log entry 32). -/
def Obligations.PreampAnswerEndsAttempt : Prop :=
  ((∀ (t : Transaction) (data : Byte) (par stop : Bool) (s : State), s.chip.pre.port = .awaiting →
     s.chip.pre.trans = some t → goodCharacter data par stop = true → data.toNat = t.step.val →
     exec (.characterReceived data par stop) s = .next (s.onChip (fun c =>
       { c with pre := { c.pre with
           port := .idle, trans := none
           inputs := upd c.pre.inputs t.input (fun x =>
             { x with confirmed := some t.step, state := .settling,
                      pending := some (t.step, c.cad.period + 1 + BitVec.ofNat 32 c.cfg.settle) }) } }))) ∧
   (∀ (data : Byte) (par stop : Bool) (s : State), s.chip.pre.port ≠ .awaiting →
     exec (.characterReceived data par stop) s = .next s) ∧
   ∀ (i : InputId) (st : PreStep) (e : Period) (s : State), s.chip.pre.inputs[i].pending = some (st, e) →
     atOrBefore e s.chip.cad.period = true →
     exec (.settleEnd i) s = .next (s.onChip (fun c =>
       { c with pre := { c.pre with
           inputs := upd c.pre.inputs i (fun x => { x with stamp := some st, pending := none, state := .ready }) } }))) ∧
  let first (t : Transaction) (s : State) : State := s.onChip (fun c =>
    { c with pre := { c.pre with
        port := .retry, line := [Character.sent (BitVec.ofNat 8 (128 + t.input.val)),
                 Character.sent (BitVec.ofNat 8 t.step.val)] } })
  let second (t : Transaction) (s : State) : State := s.onChip (fun c =>
    Chip.post .preampFault t.input.val (wordOf t.step.val)
      { c with pre := { c.pre with
          port := .idle, trans := none
          inputs := upd c.pre.inputs t.input (fun x =>
            { x with state := .faulted, confirmed := none, stamp := none }) } })
  ∀ (t : Transaction) (s : State), s.chip.pre.port = .awaiting → s.chip.pre.trans = some t →
    (t.timer = 0 → t.attempt = 1 → exec .answerTimerExpiry s = .next (first t s)) ∧
    (t.timer = 0 → t.attempt = 2 → exec .answerTimerExpiry s = .next (second t s)) ∧
    ∀ (data : Byte) (par stop : Bool), (goodCharacter data par stop = false ∨ data.toNat ≠ t.step.val) →
      (t.attempt = 1 → exec (.characterReceived data par stop) s = .next (first t s)) ∧
      (t.attempt = 2 → exec (.characterReceived data par stop) s = .next (second t s))

/-- The stage's answers. A CLAIM from node d: NO INPUT with value 0 for an input that does not exist; for an unclaimed one TAKEN with
the confirmed step, 63 for UNKNOWN, and d becomes the claimant; from the claimant TAKEN with that step, nothing changing; otherwise
HELD with the claimant's id. A RELEASE from node d: NO INPUT with value 0 for an input that does not exist; from the claimant TAKEN
with value 0, and the claimant becomes none, the input's step and state and the queue staying; otherwise NOT HOLDER with the
claimant's id, or 255 where the input is unclaimed. A GAIN from node d is judged in the same way; from the claimant it is a
request, TAKEN with the clamped step where it is admitted, and BUSY with nothing changed where the queue is full. -/
def Obligations.StageAnswersClaimReleaseAndGain : Prop :=
  ∀ (d : NodeId) (i : InputId) (step : Nat) (c : Chip),
    (c.cfg.preampCount ≤ i.val → c.offerClaim d i = (c, .refused .noInput 0)) ∧
    (c.existing i → c.pre.inputs[i].claimant = none →
      c.offerClaim d i =
        ({ c with pre := { c.pre with inputs := upd c.pre.inputs i (fun x => { x with claimant := some d }) } },
         .taken ⟨stepCode c.pre.inputs[i].confirmed % 256, by omega⟩)) ∧
    (c.existing i → c.pre.inputs[i].claimant = some d →
      c.offerClaim d i = (c, .taken ⟨stepCode c.pre.inputs[i].confirmed % 256, by omega⟩)) ∧
    (∀ e : NodeId, c.existing i → c.pre.inputs[i].claimant = some e → e ≠ d →
      c.offerClaim d i = (c, .refused .held ⟨e.val, by omega⟩)) ∧
    (c.cfg.preampCount ≤ i.val →
      c.offerRelease d i = (c, .refused .noInput 0) ∧ c.offerGain d i step = (c, .refused .noInput 0)) ∧
    (c.existing i → c.pre.inputs[i].claimant = none →
      c.offerRelease d i = (c, .refused .notHolder 255) ∧ c.offerGain d i step = (c, .refused .notHolder 255)) ∧
    (∀ e : NodeId, c.existing i → c.pre.inputs[i].claimant = some e → e ≠ d →
      c.offerRelease d i = (c, .refused .notHolder ⟨e.val, by omega⟩) ∧
      c.offerGain d i step = (c, .refused .notHolder ⟨e.val, by omega⟩)) ∧
    (c.existing i → c.pre.inputs[i].claimant = some d →
      c.offerRelease d i =
        ({ c with pre := { c.pre with inputs := upd c.pre.inputs i (fun x => { x with claimant := none }) } }, .taken 0) ∧
      ((c.pre.queued i = true ∨ c.pre.queue.length < 8) →
        c.offerGain d i step =
          ({ c with pre := { c.pre with
              queue := enqueueRequest { input := i, step := clampStep step, who := .node d } c.pre.queue
              inputs := upd c.pre.inputs i (fun x => { x with requester := some (.node d), sweep := false }) } },
           .taken ⟨min step 60, by omega⟩)) ∧
      (c.pre.queued i = false → 8 ≤ c.pre.queue.length → c.offerGain d i step = (c, .busy)))

/-! ## The host on the bus -/

/-- MEMORY_WRITE stores the enabled byte lanes of its word and leaves every other byte of memory as it was, whatever the area of its
address. To plain memory, to a report word or to a RETURN tap, and with fewer than four lanes to a code word or to a SEND tap, it does
nothing to the part. A whole write to a SEND tap is a SEND_TAP_WRITE, a write to an argument word an ARGUMENT_WRITE, and a whole write to
a code word the code write of its code: CODE_ZERO, the order's own command, RESTART with the straps as they stand, or
UNKNOWN_ORDER. -/
def Obligations.MemoryWriteStoresEnabledLanes : Prop :=
  (∀ (addr : WordAddr) (data : Word) (en : BitVec 4) (s : State), Memory.wf s.mem = true →
    ∃ t : State, exec (.memoryWrite addr data en) s = .next t ∧ t.straps = s.straps ∧ t.pending = s.pending ∧
      ∀ a : Nat, memByte t.mem a =
        if a / 4 = addr.toNat ∧ en.getLsbD (a % 4) = true then lane data (a % 4) else memByte s.mem a) ∧
  ∀ (addr : WordAddr) (s : State),
    let alone (data : Word) (en : BitVec 4) : Prop :=
      exec (.memoryWrite addr data en) s = .next { s with mem := memWrite s.mem addr.toNat data en }
    (s.chip.area addr.toNat = .plain → ∀ (data : Word) (en : BitVec 4), alone data en) ∧
    (∀ w : Nat, s.chip.area addr.toNat = .report w → ∀ (data : Word) (en : BitVec 4), alone data en) ∧
    (∀ (k : Nat) (pl : TapPlace), s.chip.area addr.toNat = .returnTap k pl →
      ∀ (data : Word) (en : BitVec 4), alone data en) ∧
    (∀ (k : Nat) (pl : TapPlace), s.chip.area addr.toNat = .sendTap k pl →
      (∀ (data : Word) (en : BitVec 4), en ≠ 15 → alone data en) ∧
      ∀ data : Word, exec (.memoryWrite addr data 15) s = exec (.sendTapWrite addr data) s) ∧
    (∀ (i : CellId) (k : Fin 7), s.chip.area addr.toNat = .argument i k →
      addr.toNat = s.chip.windowBase + 512 + 8 * i.val + (k.val + 1) ∧
      ∀ (data : Word) (en : BitVec 4), exec (.memoryWrite addr data en) s = exec (.argumentWrite i k data en) s) ∧
    ∀ i : CellId, s.chip.area addr.toNat = .code i →
      addr.toNat = s.chip.windowBase + 512 + 8 * i.val ∧
      (∀ (data : Word) (en : BitVec 4), en ≠ 15 → alone data en) ∧
      ∀ (tag : BitVec 16) (sp : Byte),
        exec (.memoryWrite addr (tag ++ sp ++ 0#8) 15) s = exec (.codeZero i tag sp) s ∧
        (∀ x ∈ orderWrites i tag sp, exec (.memoryWrite addr (tag ++ sp ++ x.1) 15) s = exec x.2 s) ∧
        exec (.memoryWrite addr (tag ++ sp ++ 18#8) 15) s = exec (.restart i tag ⟨sp, s.straps⟩) s ∧
        ∀ code : Byte, codeUnnamed code = true →
          exec (.memoryWrite addr (tag ++ sp ++ code) 15) s = exec (.unknownOrder i tag sp code) s

/-- A word of a SEND tap lies at base, half, frame and channel of the tap, in RUN. SEND_TAP_WRITE to the FILLING half is captured at its
frame and own position: LEFT carries the sample in bits 31 to 8, the key in bit 0 and the overload mark in bit 1; RIGHT the sample in
bits 23 to 0, with key up and overload clear. To the FROZEN half it is late: counted, and the first of a block posts SEND LATE with the
frame. The memory word is written either way. -/
def Obligations.SendTapWriteCapturedOrLate : Prop :=
  ∀ (addr : WordAddr) (data : Word) (k : Nat) (pl : TapPlace) (tp : Tap) (s : State),
    s.chip.area addr.toNat = .sendTap k pl → s.chip.tap.taps[k]? = some tp →
    tp.kind = .send ∧ s.chip.sys.mode = .run ∧ pl.chan < tp.chans ∧
    (s.chip.cfg.blockLen ≤ 32 → pl.frame.val < s.chip.cfg.blockLen ∧
      addr.toNat = tp.base + (pl.half.val * s.chip.cfg.blockLen + pl.frame.val) * tp.chans + pl.chan) ∧
    (pl.half ≠ s.chip.tap.frozen → ∀ h : tp.first + pl.chan < 96, ∃ e : SendEntry,
      e.written = true ∧
      (tp.just = .left → e.sample = data.extractLsb' 8 24 ∧ e.key = data.getLsbD 0 ∧ e.overload = data.getLsbD 1) ∧
      (tp.just = .right → e.sample = data.extractLsb' 0 24 ∧ e.key = false ∧ e.overload = false) ∧
      exec (.sendTapWrite addr data) s = .next
        { s with
          mem := memWrite s.mem addr.toNat data 15
          chip := { s.chip with tap := { s.chip.tap with
            banks := upd s.chip.tap.banks pl.half (fun b =>
              { b with frames := upd b.frames pl.frame (fun fr => fr.set (tp.first + pl.chan) e) }) } } }) ∧
    (pl.half = s.chip.tap.frozen → tp.lateMark = true →
      exec (.sendTapWrite addr data) s = .next
        { s with
          mem := memWrite s.mem addr.toNat data 15
          chip := { s.chip with tap := { s.chip.tap with
            taps := s.chip.tap.taps.set k { tp with lateCount := tp.lateCount + 1 } } } }) ∧
    (pl.half = s.chip.tap.frozen → tp.lateMark = false →
      exec (.sendTapWrite addr data) s = .next
        { s with
          mem := memWrite s.mem addr.toNat data 15
          chip := Chip.post .sendLate k (wordOf pl.frame.val) { s.chip with tap := { s.chip.tap with
            taps := s.chip.tap.taps.set k { tp with lateCount := tp.lateCount + 1, lateMark := true } } } })

/-- ARGUMENT_WRITE, in every mode: the enabled byte lanes reach the part's copy of that argument word and the word in memory; the
other lanes, the other copies and every other item of the part stay. -/
def Obligations.ArgumentWriteUpdatesCopy : Prop :=
  ∀ (i : CellId) (k : Fin 7) (data : Word) (en : BitVec 4) (s : State),
    ∃ t : State, exec (.argumentWrite i k data en) s = .next t ∧
      t.mem = memWrite s.mem (s.chip.windowBase + 512 + 8 * i.val + (k.val + 1)) data en ∧
      (∀ b : Fin 4, lane (t.chip.cellAt i).args[k] b.val =
        if en.getLsbD b.val = true then lane data b.val else lane (s.chip.cellAt i).args[k] b.val) ∧
      t.chip = s.chip.onCell i (fun x => { x with args := x.args.set k (t.chip.cellAt i).args[k] })

/-- EVENT_HEAD_READ in RUN or HALTED removes the oldest event, returns its kind and subject with the events left and the overflow
mark as it stands after the removal, and latches its period and value; a removal that leaves the queue empty clears the mark. With
the queue empty it returns kind NONE, subject 0, count 0 and the latch becomes 0. In LOADING it returns 0 and removes nothing. What any
other read answers: a word of a RETURN tap lies at base, half, frame and channel of the tap; where its half shows a block, an output of
its record's entry answers with sample and tag as the tap is justified, and a "pass" entry, or a half that shows nothing, with the
memory's data. Of the report window, field by field as R196 to R199 lay them out: the summary in every mode, and outside LOADING the
cells' result words, the latch, the tap counts, the port pages, the origin pages of the peers and of this node, the plan pages, the
records' and the preamp inputs' words. A numeric field is stated for the values that fit in it. That summary word 7 is 0 with no staged
plan, and a peer's cadence and port fields are 0 with no report held, is the model's choice (log entry 36). In LOADING every word past
the summary reads 0. Every other word answers from memory. -/
def Obligations.HostReadsAnswer : Prop :=
  (∀ (e : Event) (rest : List Event) (s : State), s.chip.sys.mode ≠ .loading → s.chip.ord.events = e :: rest →
    exec .eventHeadRead s = .next (s.onChip (fun c =>
      { c with ord := { c.ord with
          events := rest, latchPeriod := e.period, latchValue := e.value
          overflow := if rest = [] then false else c.ord.overflow
          readWord := headWord (eventCode e.kind) e.subject rest.length
            (if rest = [] then false else c.ord.overflow) } }))) ∧
  (∀ s : State, s.chip.sys.mode ≠ .loading → s.chip.ord.events = [] → s.chip.ord.overflow = false →
    exec .eventHeadRead s = .next (s.onChip (fun c =>
      { c with ord := { c.ord with latchPeriod := 0, latchValue := 0, readWord := 0 } }))) ∧
  (∀ s : State, s.chip.sys.mode = .loading →
    exec .eventHeadRead s = .next (s.onChip (fun c => { c with ord := { c.ord with readWord := 0 } }))) ∧
  (∀ (addr k : Nat) (pl : TapPlace) (s : State), s.chip.area addr = .returnTap k pl → s.chip.cfg.blockLen ≤ 32 →
    ∃ x : Tap, s.chip.tap.taps[k]? = some x ∧ x.kind = .ret ∧ s.chip.sys.mode = .run ∧ pl.chan < x.chans ∧
      addr = x.base + (pl.half.val * s.chip.cfg.blockLen + pl.frame.val) * x.chans + pl.chan ∧
      (s.chip.tap.shown[pl.half] = none → s.hostRead addr = memWord s.mem addr) ∧
      ∀ (blk : Nat) (r : RecordId), s.chip.tap.shown[pl.half] = some blk → r.val = x.first + pl.chan →
        let e := ((s.chip.ret.banks[Fin.ofNat 8 blk])[pl.frame])[r]
        (e = .pass → s.hostRead addr = memWord s.mem addr) ∧
        ∀ (q : Sample) (g : OutTag), e = .output q g →
          (x.just = .right → s.hostRead addr = q.signExtend 32) ∧
          (x.just = .left → (s.hostRead addr).extractLsb' 8 24 = q ∧ (s.hostRead addr).getLsbD 0 = g.key ∧
            (s.hostRead addr).getLsbD 1 = g.overload ∧ (s.hostRead addr).getLsbD 2 = g.valid ∧
            (s.hostRead addr).getLsbD 3 = g.loss ∧ ((s.hostRead addr).extractLsb' 4 3).toNat = g.origin.val ∧
            (s.hostRead addr).getLsbD 7 = false)) ∧
  (∀ (addr : Nat) (s : State), (∀ w : Nat, s.chip.area addr ≠ .report w) →
    (∀ (k : Nat) (pl : TapPlace), s.chip.area addr ≠ .returnTap k pl) → s.hostRead addr = memWord s.mem addr) ∧
  ∀ s : State,
    let read (w : Nat) : Word := s.hostRead (s.chip.windowBase + w)
    (bits (read 0) 0 2 = modeCode s.chip.sys.mode ∧ bits (read 0) 2 2 = causeCode s.chip.sys.cause ∧
      bits (read 0) 4 3 = s.chip.cfg.nodeId.val ∧ bits (read 0) 8 4 = faultCode s.chip.sys.loadFault ∧
      bits (read 0) 12 4 = s.chip.sys.strapBase.val) ∧
    read 1 = s.chip.cad.period ∧
    (((read 2).getLsbD 0 = true ↔ s.chip.cad.role = .timing) ∧ bits (read 2) 1 3 = cadenceCode s.chip.cad.state ∧
      bits (read 2) 4 4 = nodeCode s.chip.cad.ref ∧ bits (read 2) 8 2 = ringCode s.chip.sel.ring ∧
      ∀ n : NodeId, (read 2).getLsbD (16 + n.val) = true ↔ n = s.chip.cfg.nodeId ∨ (s.chip.sel.origins[n]).member = true) ∧
    read 3 = s.chip.sel.epoch ∧
    ((read 4).extractLsb' 0 16 = s.chip.pln.current.version ∧
      (s.chip.pln.prior = none → (read 4).extractLsb' 16 16 = 0) ∧
      ∀ x : Plan, s.chip.pln.prior = some x → (read 4).extractLsb' 16 16 = x.version) ∧
    read 5 = s.chip.pln.adopted ∧
    ((read 6).getLsbD 17 = s.chip.pln.announcing s.chip.cad.period ∧
      (s.chip.pln.staged = none → (read 6).extractLsb' 0 16 = 0 ∧ (read 6).getLsbD 16 = false ∧ read 7 = 0) ∧
      ∀ st : StagedPlan, s.chip.pln.staged = some st →
        (read 6).extractLsb' 0 16 = st.plan.version ∧ (read 6).getLsbD 16 = st.announced ∧ read 7 = st.e) ∧
    ((s.chip.sel.delay < 32 → bits (read 8) 0 5 = s.chip.sel.delay) ∧
      (s.chip.sel.pending = none → bits (read 8) 5 5 = 0) ∧
      (∀ x : Nat, s.chip.sel.pending = some x → x < 32 → bits (read 8) 5 5 = x) ∧
      (s.chip.sel.advice < 32 → bits (read 8) 10 5 = s.chip.sel.advice) ∧
      (s.chip.tap.j < 8 → bits (read 8) 16 3 = s.chip.tap.j) ∧
      (s.chip.cfg.blockLen < 64 → bits (read 8) 24 6 = s.chip.cfg.blockLen)) ∧
    (∀ h : Fin 2, (s.chip.tap.shown[h] = none → read (9 + h.val) = 0xFFFFFFFF#32) ∧
      ∀ b : Nat, s.chip.tap.shown[h] = some b → read (9 + h.val) = BitVec.ofNat 32 b) ∧
    ((s.chip.ord.events.length < 64 → bits (read 11) 0 6 = s.chip.ord.events.length) ∧
      (read 11).getLsbD 6 = s.chip.ord.overflow ∧ (read 11).getLsbD 7 = s.chip.attn) ∧
    read 12 = s.chip.cfg.serial ∧
    ((read 13).getLsbD 0 = s.chip.cfg.rate96 ∧ ((read 13).getLsbD 1 = true ↔ s.chip.cfg.source = .wck) ∧
      bits (read 13) 4 3 = s.chip.cfg.authority.val ∧
      (s.chip.cfg.preampCount < 128 → bits (read 13) 8 7 = s.chip.cfg.preampCount)) ∧
    (s.chip.sys.mode = .loading → ∀ w : Nat, 32 ≤ w → w < 512 → read w = 0) ∧
    (s.chip.sys.mode ≠ .loading →
      read 41 = s.chip.ord.latchPeriod ∧ read 42 = s.chip.ord.latchValue ∧
      (∀ i : CellId,
        let x := s.chip.cellAt i
        let w := read (32 + 2 * i.val)
        read (33 + 2 * i.val) = x.value ∧ (w.extractLsb' 0 2).toNat = cellCode x.state ∧ w.getLsbD 2 = x.overrun ∧
        (w.extractLsb' 3 5).toNat = reasonCode x.reason ∧ w.extractLsb' 8 8 = x.code ∧ w.extractLsb' 16 16 = x.tag) ∧
      (∀ k : Fin 12,
        (∀ x : Tap, s.chip.tap.taps[k.val]? = some x → x.kind = .send →
          read (48 + 2 * k.val) = x.lateCount ∧ read (49 + 2 * k.val) = x.underrun) ∧
        ((∀ x : Tap, s.chip.tap.taps[k.val]? = some x → x.kind = .ret) →
          read (48 + 2 * k.val) = 0 ∧ read (49 + 2 * k.val) = 0)) ∧
      (∀ p : Port,
        let x := s.chip.portOf p
        let page (k : Nat) : Word := read (72 + 12 * portCode p + k)
        bits (page 0) 0 2 = rxCode x.rx ∧ (page 0).getLsbD 2 = x.light ∧ bits (page 0) 4 2 = txCode x.txMode ∧
        (x.goodRun < 32 → bits (page 0) 8 5 = x.goodRun) ∧ (x.windowTicks < 64 → bits (page 0) 16 6 = x.windowTicks) ∧
        (∀ n : Nat, x.acquireTimer = some n → page 1 = BitVec.ofNat 32 n) ∧
        (∀ n : Nat, x.acquireTimer = none → x.quarTimer = some n → page 1 = BitVec.ofNat 32 n) ∧
        (x.acquireTimer = none → x.quarTimer = none → page 1 = 0) ∧
        page 2 = BitVec.ofNat 32 x.windowBad ∧ page 3 = BitVec.ofNat 32 x.drill ∧ page 4 = x.nGood ∧ page 5 = x.nBad ∧
        page 6 = x.nForwarded ∧ page 7 = x.nDropped ∧ page 8 = x.nLap ∧ page 9 = x.nQuarantine) ∧
      (∀ o : NodeId, o ≠ s.chip.cfg.nodeId →
        let x := s.chip.sel.origins[o]
        let page (k : Nat) : Word := read (96 + 16 * o.val + k)
        (page 0).getLsbD 0 = x.member ∧ (page 0).getLsbD 1 = x.present ∧
        (x.cadence = none → (page 0).getLsbD 2 = false ∧ bits (page 0) 4 13 = 0) ∧
        (∀ r : CadenceReport, x.cadence = some r → (page 0).getLsbD 2 = true ∧ bits (page 0) 4 3 = cadenceCode r.state ∧
          ((page 0).getLsbD 7 = true ↔ r.role = .timing) ∧ bits (page 0) 8 4 = nodeCode r.ref ∧
          bits (page 0) 12 4 = r.rank.val ∧ (page 0).getLsbD 16 = r.unsync) ∧
        (x.ports = none → bits (page 0) 18 4 = 0) ∧
        (∀ q : PortReport, x.ports = some q →
          bits (page 0) 18 2 = rxCode q.east ∧ bits (page 0) 20 2 = rxCode q.west) ∧
        page 1 = x.serial ∧ page 2 = x.missing ∧ page 3 = x.outside ∧
        ∀ p : Port,
          let y := (s.chip.sel.paths[o]).get p
          let part (k : Nat) : Word := page (4 + 5 * portCode p + k)
          showsAge (part 0) y.lastAge ∧ showsAge (part 1) y.maxAge ∧ part 2 = y.copies ∧ part 3 = y.late ∧
          (y.hop = none → part 4 = 0) ∧ ∀ n : Nat, y.hop = some n → part 4 = BitVec.ofNat 32 n) ∧
      (
        let page (k : Nat) : Word := read (96 + 16 * s.chip.cfg.nodeId.val + k)
        (page 0).getLsbD 0 = true ∧ page 1 = s.chip.cfg.serial ∧
        ∀ p : Port,
          let y := s.chip.sel.lap.get p
          bits (page 0) (18 + 2 * portCode p) 2 = rxCode (s.chip.portOf p).rx ∧
          (y.silence < 256 → bits (page 2) (8 * portCode p) 8 = y.silence) ∧
          showsAge (page (4 + 5 * portCode p)) y.lastAge ∧ showsAge (page (5 + 5 * portCode p)) y.maxAge) ∧
      (∀ k : Fin 16, showsAllotment (read (224 + k.val)) s.chip.pln.current.allots[k.val]? ∧
        (s.chip.pln.staged = none → read (240 + k.val) = 0) ∧
        (∀ st : StagedPlan, s.chip.pln.staged = some st →
          showsAllotment (read (240 + k.val)) st.plan.allots[k.val]?) ∧
        showsAllotment (read (256 + k.val)) s.chip.pln.draft[k]) ∧
      (∀ r : RecordId,
        let x := s.chip.recordAt r
        let w := read (272 + r.val)
        (x.main.value ≤ 16777216 → (w.extractLsb' 10 22).toNat = x.main.value / 8) ∧
        (w.extractLsb' 8 2).toNat = claimCode x.claim ∧ w.getLsbD 7 = x.present ∧ w.getLsbD 6 = x.limited ∧
        (w.extractLsb' 0 6).toNat = stepCode x.aLast) ∧
      ∀ i : InputId,
        let x := s.chip.pre.inputs[i]
        let w := read (400 + i.val)
        (w.extractLsb' 0 6).toNat = stepCode x.confirmed ∧ (w.extractLsb' 6 6).toNat = stepCode x.stamp ∧
        (s.chip.existing i → (w.extractLsb' 12 2).toNat = inputCode x.state) ∧
        (¬ s.chip.existing i → (w.extractLsb' 12 2).toNat = 3) ∧ (w.extractLsb' 14 4).toNat = nodeCode x.claimant ∧
        (w.extractLsb' 18 4).toNat = requesterCode x.requester ∧
        (w.getLsbD 22 = true ↔ ∃ y ∈ s.chip.pre.queue, y.input = i))

/-! ## Code writes -/

/-- CODE_ZERO in RUN or HALTED returns a cell that is not RUNNING to IDLE with the written tag. UNKNOWN_ORDER in RUN completes such
a cell FAILED with UNKNOWN ORDER, and in HALTED with NOT RUNNING, both for a code that names no order (log entry 26); the value, which
no rule gives, is free. At a RUNNING cell either of them marks the overrun alone, and in LOADING it reaches memory alone, which R182
says of every code. -/
def Obligations.CodeZeroIdlesUnknownFails : Prop :=
  ∀ (i : CellId) (tag : BitVec 16) (sp : Byte) (s : State),
    (s.chip.sys.mode ≠ .loading → (s.chip.cellAt i).state ≠ .running →
      exec (.codeZero i tag sp) s = .next
        { s with
          mem := s.codeMem i tag sp 0
          chip := s.chip.onCell i (·.ended 0 tag .idle .none 0) }) ∧
    (∀ code : Byte, codeUnnamed code = true → s.chip.takes i →
      exec (.unknownOrder i tag sp code) s = .next
        { s with mem := s.codeMem i tag sp code, chip := s.chip.endsRefused i code tag .unknownOrder }) ∧
    (∀ code : Byte, codeUnnamed code = true → s.chip.sys.mode = .halted → (s.chip.cellAt i).state ≠ .running →
      exec (.unknownOrder i tag sp code) s = .next
        { s with mem := s.codeMem i tag sp code, chip := s.chip.endsRefused i code tag .notRunning }) ∧
    (s.chip.sys.mode ≠ .loading → (s.chip.cellAt i).state = .running →
      exec (.codeZero i tag sp) s = .next
        { s with mem := s.codeMem i tag sp 0, chip := s.chip.onCell i (fun x => { x with overrun := true }) } ∧
      ∀ code : Byte, exec (.unknownOrder i tag sp code) s = .next
        { s with mem := s.codeMem i tag sp code, chip := s.chip.onCell i (fun x => { x with overrun := true }) }) ∧
    (s.chip.sys.mode = .loading →
      exec (.codeZero i tag sp) s = .next { s with mem := s.codeMem i tag sp 0 } ∧
      ∀ code : Byte, exec (.unknownOrder i tag sp code) s = .next { s with mem := s.codeMem i tag sp code })

/-- Where an order is not taken: in LOADING the code write reaches memory alone; a RUNNING cell keeps its order and is marked
overrun; in HALTED every order but RESTART fails with NOT RUNNING. -/
def Obligations.OrdersRefusedByModeAndCell : Prop :=
  ∀ (i : CellId) (tag : BitVec 16) (sp : Byte) (s : State), ∀ q ∈ orderWrites i tag sp,
    (s.chip.sys.mode = .loading →
      exec q.2 s = .next { s with mem := s.codeMem i tag sp q.1 }) ∧
    (s.chip.sys.mode ≠ .loading → (s.chip.cellAt i).state = .running →
      exec q.2 s = .next
        { s with
          mem := s.codeMem i tag sp q.1
          chip := s.chip.onCell i (fun x => { x with overrun := true }) }) ∧
    (s.chip.sys.mode = .halted → (s.chip.cellAt i).state ≠ .running →
      exec q.2 s = .next
        { s with mem := s.codeMem i tag sp q.1, chip := s.chip.endsRefused i q.1 tag .notRunning })

/-- TRIM sets a record's trim, clamped to −144 to +48, and completes DONE with it; a record index above 127 is refused with NO
RECORD. Nothing else changes. LOSS sets a record's policy and its fade lengths, clamped to 1 to 4,800, and completes DONE with
the policy; a policy code above 2 is refused with UNKNOWN ORDER. Nothing else changes. -/
def Obligations.TrimAndLossSetRecord : Prop :=
  (∀ (i : CellId) (tag : BitVec 16) (sp : Byte) (s : State), s.chip.takes i →
     (∀ r : RecordId, (s.chip.cellAt i).args[0].toNat = r.val →
       exec (.trim i tag sp) s = .next
         { s with
           mem := s.codeMem i tag sp 1
           chip := (s.chip.onRecord r (fun x =>
             { x with trim := clampInt (-144) 48 (s.chip.cellAt i).args[1].toInt })).endsDone i 1 tag
               (wordOfInt (clampInt (-144) 48 (s.chip.cellAt i).args[1].toInt)) }) ∧
     (127 < (s.chip.cellAt i).args[0].toNat →
       exec (.trim i tag sp) s = .next
         { s with mem := s.codeMem i tag sp 1, chip := s.chip.endsRefused i 1 tag .noRecord })) ∧
  ∀ (i : CellId) (tag : BitVec 16) (sp : Byte) (r : RecordId) (s : State), s.chip.takes i →
    (s.chip.cellAt i).args[0].toNat = r.val →
    (∀ p : LossPolicy, (s.chip.cellAt i).args[1].toNat = policyCode p →
      exec (.loss i tag sp) s = .next
        { s with
          mem := s.codeMem i tag sp 9
          chip := (s.chip.onRecord r (fun x =>
            { x with policy := p
                     fadeOut := (clampInt 1 4800 (s.chip.cellAt i).args[2].toInt).toNat
                     fadeIn := (clampInt 1 4800 (s.chip.cellAt i).args[3].toInt).toNat })).endsDone i 9 tag
            (wordOf (policyCode p)) }) ∧
    (2 < (s.chip.cellAt i).args[1].toNat →
      exec (.loss i tag sp) s = .next
        { s with mem := s.codeMem i tag sp 9, chip := s.chip.endsRefused i 9 tag .unknownOrder })

/-- BIND with a new binding: the binding is set, C and its target, the held sample, A_last and the presence are reset, the claim logic
starts anew with claim due set, and the cell ends DONE with the binding (256 for none). A HELD record gives its claim up besides: CLAIM
LOST is posted, and a RELEASE with no originator is appended where the owner is a peer of the roster with room in the outbox and no
other record uses the claim. An equal binding changes nothing but the cell. A record index above 127 is refused with NO RECORD, a slot
code above 256 with UNKNOWN ORDER. That kind, last owner and kind, duck engagement and compensation-limit flag stay at a BIND is the
model's reading (log entry 45), as is the value of an equal binding (log entry 24). -/
def Obligations.BindRestartsRecord : Prop :=
  let bound (b : Option (Fin 256)) (x : Record) : Record :=
    { x with binding := b, main := { x.main with value := 0, target := 0 }, heldSample := 0, aLast := none,
             present := false, claim := .none, slotInput := none, claimDue := true }
  ∀ (i : CellId) (tag : BitVec 16) (sp : Byte) (s : State), s.chip.takes i →
    (∀ (r : RecordId) (b : Option (Fin 256)), (s.chip.cellAt i).args[0].toNat = r.val →
      (s.chip.cellAt i).args[1].toNat = bindingCode b →
      ((s.chip.recordAt r).binding ≠ b → (s.chip.recordAt r).claim ≠ .held →
        exec (.bind i tag sp) s = .next
          { s with
            mem := s.codeMem i tag sp 5
            chip := (s.chip.onRecord r (bound b)).endsDone i 5 tag (wordOf (bindingCode b)) }) ∧
      (∀ (owner : NodeId) (p : InputId), (s.chip.recordAt r).binding ≠ b → (s.chip.recordAt r).claim = .held →
        (s.chip.recordAt r).slotInput = some (owner, p) →
        (s.chip.shared r owner p = false → s.chip.appends owner →
          exec (.bind i tag sp) s = .next
            { s with
              mem := s.codeMem i tag sp 5
              chip := Chip.endsDone i 5 tag (wordOf (bindingCode b))
                (((s.chip.onRecord r (bound b)).withOutbox
                  (s.chip.msg.outbox ++ [newEntry owner (.release p) .nobody])).post .claimLost r.val
                    (wordOf (owner.val * 256 + p.val))) }) ∧
        (s.chip.shared r owner p = true →
          exec (.bind i tag sp) s = .next
            { s with
              mem := s.codeMem i tag sp 5
              chip := Chip.endsDone i 5 tag (wordOf (bindingCode b))
                ((s.chip.onRecord r (bound b)).post .claimLost r.val (wordOf (owner.val * 256 + p.val))) })) ∧
      ((s.chip.recordAt r).binding = b →
        exec (.bind i tag sp) s = .next
          { s with mem := s.codeMem i tag sp 5, chip := s.chip.endsDone i 5 tag (wordOf (bindingCode b)) })) ∧
    (127 < (s.chip.cellAt i).args[0].toNat →
      exec (.bind i tag sp) s = .next
        { s with mem := s.codeMem i tag sp 5, chip := s.chip.endsRefused i 5 tag .noRecord }) ∧
    ((s.chip.cellAt i).args[0].toNat ≤ 127 → 256 < (s.chip.cellAt i).args[1].toNat →
      exec (.bind i tag sp) s = .next
        { s with mem := s.codeMem i tag sp 5, chip := s.chip.endsRefused i 5 tag .unknownOrder })

/-- TALK sets a record's mask from the low four bits, its level clamped to −144 to +48 and its duck depth clamped to −120 to 0, and
completes DONE with the level. Nothing else changes. TALKSET sets the node's attack and release, each clamped to 1 to 4,800, and
its hold, clamped to 0 to 48,000, and completes DONE with the hold. Nothing else changes: ramps under way and running hold
counts stay. TALKBIND with a new binding makes the entry QUIET with no hold, no last owner and sample 0, and completes DONE with
the binding; an equal binding changes nothing but the cell; an entry above 3 is refused with UNKNOWN ORDER. -/
def Obligations.TalkOrdersSetTalkback : Prop :=
  (∀ (i : CellId) (tag : BitVec 16) (sp : Byte) (r : RecordId) (s : State), s.chip.takes i →
     (s.chip.cellAt i).args[0].toNat = r.val →
     exec (.talk i tag sp) s = .next
       { s with
         mem := s.codeMem i tag sp 6
         chip := (s.chip.onRecord r (fun x =>
           { x with mask := (s.chip.cellAt i).args[1].extractLsb' 0 4
                    level := clampInt (-144) 48 (s.chip.cellAt i).args[2].toInt
                    duck := clampInt (-120) 0 (s.chip.cellAt i).args[3].toInt })).endsDone i 6 tag
           (wordOfInt (clampInt (-144) 48 (s.chip.cellAt i).args[2].toInt)) }) ∧
  (∀ (i : CellId) (tag : BitVec 16) (sp : Byte) (s : State), s.chip.takes i →
     exec (.talkset i tag sp) s = .next
       { s with
         mem := s.codeMem i tag sp 7
         chip := Chip.endsDone i 7 tag (wordOf (clampInt 0 48000 (s.chip.cellAt i).args[2].toInt).toNat)
           { s.chip with ret := { s.chip.ret with
               attack := (clampInt 1 4800 (s.chip.cellAt i).args[0].toInt).toNat
               release := (clampInt 1 4800 (s.chip.cellAt i).args[1].toInt).toNat
               hold := (clampInt 0 48000 (s.chip.cellAt i).args[2].toInt).toNat } } }) ∧
  ∀ (i : CellId) (tag : BitVec 16) (sp : Byte) (s : State), s.chip.takes i →
    (∀ (e : Fin 4) (b : Option (Fin 256)), (s.chip.cellAt i).args[0].toNat = e.val →
      (s.chip.cellAt i).args[1].toNat = bindingCode b →
      (s.chip.ret.talk[e].binding ≠ b →
        exec (.talkbind i tag sp) s = .next
          { s with
            mem := s.codeMem i tag sp 8
            chip := Chip.endsDone i 8 tag (wordOf (bindingCode b))
              { s.chip with ret := { s.chip.ret with
                  talk := s.chip.ret.talk.set e
                    { binding := b, state := .quiet, hold := none, owner := none, sample := 0 } } } }) ∧
      (s.chip.ret.talk[e].binding = b →
        exec (.talkbind i tag sp) s = .next
          { s with mem := s.codeMem i tag sp 8, chip := s.chip.endsDone i 8 tag (wordOf (bindingCode b)) })) ∧
    (3 < (s.chip.cellAt i).args[0].toNat →
      exec (.talkbind i tag sp) s = .next
        { s with mem := s.codeMem i tag sp 8, chip := s.chip.endsRefused i 8 tag .unknownOrder })

/-- WANT at a record that is not HELD, and with step 63 at any record, sets W and completes DONE with it. At a HELD record with a step:
where the owner is a peer of the roster with room in the outbox, a GAIN is appended with the cell as originator and the cell stays
RUNNING, its reason and value kept (the model's reading, log entry 15); an owner that is no member ends UNANSWERED, with a full outbox
too (the model's choice, log entry 62), and a full outbox at a member OUTBOX FULL, each FAILED with MESSAGE FAILED posted; where the owner is this node and holds the input with room in the preamp queue,
the request is made and the cell ends DONE with the step. Where the message ends at once (no member, a full outbox, an input of
this node) no ORDER DONE is posted, which is the model's reading (log entry 25). The value of a cell that fails without one is free (log
entry 9). A record index above 127 is refused with NO RECORD. -/
def Obligations.WantSetsStepAndSendsGain : Prop :=
  ∀ (i : CellId) (tag : BitVec 16) (sp : Byte) (s : State), s.chip.takes i →
    (∀ r : RecordId, (s.chip.cellAt i).args[0].toNat = r.val →
      (((s.chip.recordAt r).claim ≠ .held ∨ (s.chip.cellAt i).args[1].toNat = 63) →
        exec (.want i tag sp) s = .next
          { s with
            mem := s.codeMem i tag sp 2
            chip := (s.chip.onRecord r (fun x =>
              { x with want := wantOf (s.chip.cellAt i).args[1].toNat })).endsDone i 2 tag
              (wordOf (stepCode (wantOf (s.chip.cellAt i).args[1].toNat))) }) ∧
      ∀ (w : PreStep) (owner : NodeId) (p : InputId), (s.chip.recordAt r).claim = .held →
        (s.chip.recordAt r).slotInput = some (owner, p) → wantOf (s.chip.cellAt i).args[1].toNat = some w →
        let c := s.chip.onRecord r (fun x => { x with want := some w })
        let failed (why : Reason) : Chip := Chip.endsRefused i 2 tag why
          (c.post .messageFailed owner.val (wordOf (2 * 65536 + p.val * 256 + reasonCode why)))
        (s.chip.appends owner →
          exec (.want i tag sp) s = .next
            { s with
              mem := s.codeMem i tag sp 2
              chip := (c.withOutbox
                (s.chip.msg.outbox ++ [newEntry owner (.gain p (bodyStep w)) (.cell i r)])).staysRunning i 2 tag
                (s.chip.cellAt i).args .message }) ∧
        (owner ≠ s.chip.cfg.nodeId → s.chip.isMember owner = false →
          exec (.want i tag sp) s = .next { s with mem := s.codeMem i tag sp 2, chip := failed .unanswered }) ∧
        (owner ≠ s.chip.cfg.nodeId → s.chip.isMember owner = true → 16 ≤ s.chip.msg.outbox.length →
          exec (.want i tag sp) s = .next { s with mem := s.codeMem i tag sp 2, chip := failed .outboxFull }) ∧
        (owner = s.chip.cfg.nodeId → s.chip.existing p → s.chip.pre.inputs[p].claimant = some owner →
          s.chip.pre.queued p = false → s.chip.pre.queue.length < 8 →
          exec (.want i tag sp) s = .next
            { s with
              mem := s.codeMem i tag sp 2
              chip := Chip.endsDone i 2 tag (wordOf w.val)
                { c with pre := { c.pre with
                    queue := c.pre.queue ++ [{ input := p, step := w, who := .node owner }]
                    inputs := upd c.pre.inputs p (fun x =>
                      { x with requester := some (.node owner), sweep := false }) } } })) ∧
    (127 < (s.chip.cellAt i).args[0].toNat →
      exec (.want i tag sp) s = .next
        { s with mem := s.codeMem i tag sp 2, chip := s.chip.endsRefused i 2 tag .noRecord })

/-- SEEK off clears the flag and completes DONE with 0, keeping the claim. SEEK on with no slot input sets the flag and completes
DONE with 0; where the record is NONE or DENIED and its owner is a peer of the roster, with room in the outbox, a CLAIM is appended
with the record as originator, the record is ASKING, and the value is 1. -/
def Obligations.SeekSetsFlagAndClaims : Prop :=
  ∀ (i : CellId) (tag : BitVec 16) (sp : Byte) (r : RecordId) (s : State), s.chip.takes i →
    (s.chip.cellAt i).args[0].toNat = r.val →
    ((s.chip.cellAt i).args[1] = 0 →
      exec (.seek i tag sp) s = .next
        { s with
          mem := s.codeMem i tag sp 3
          chip := (s.chip.onRecord r (fun x => { x with seek := false })).endsDone i 3 tag 0 }) ∧
    ((s.chip.cellAt i).args[1] = 1 → (s.chip.recordAt r).slotInput = none →
      exec (.seek i tag sp) s = .next
        { s with
          mem := s.codeMem i tag sp 3
          chip := (s.chip.onRecord r (fun x => { x with seek := true })).endsDone i 3 tag 0 }) ∧
    ∀ (owner : NodeId) (p : InputId), (s.chip.cellAt i).args[1] = 1 →
      (s.chip.recordAt r).slotInput = some (owner, p) →
      ((s.chip.recordAt r).claim = .none ∨ (s.chip.recordAt r).claim = .denied) → s.chip.appends owner →
      exec (.seek i tag sp) s = .next
        { s with
          mem := s.codeMem i tag sp 3
          chip := ((s.chip.onRecord r (fun x => { x with seek := true, claim := .asking })).withOutbox
            (s.chip.msg.outbox ++ [newEntry owner (.claim p) (.record r)])).endsDone i 3 tag 1 }

/-- RELEASE at a HELD record whose claim no other record shares, its owner a peer of the roster and with room in the outbox: the
record is NONE at once, a RELEASE is appended with the cell as originator, and the cell stays RUNNING, its reason and value kept
(the model's reading, log entry 15). Where another record shares the claim no message is sent and the cell ends DONE with 0. A record
that is not HELD is refused with NOT HOLDER. -/
def Obligations.ReleaseGivesClaimUp : Prop :=
  ∀ (i : CellId) (tag : BitVec 16) (sp : Byte) (r : RecordId) (s : State), s.chip.takes i →
    (s.chip.cellAt i).args[0].toNat = r.val →
    (∀ (owner : NodeId) (p : InputId), (s.chip.recordAt r).claim = .held →
      (s.chip.recordAt r).slotInput = some (owner, p) → s.chip.shared r owner p = false → s.chip.appends owner →
      exec (.release i tag sp) s = .next
        { s with
          mem := s.codeMem i tag sp 4
          chip := ((s.chip.onRecord r (fun x => { x with claim := .none })).withOutbox
            (s.chip.msg.outbox ++ [newEntry owner (.release p) (.cell i r)])).staysRunning i 4 tag
            (s.chip.cellAt i).args .message }) ∧
    (∀ (owner : NodeId) (p : InputId), (s.chip.recordAt r).claim = .held →
      (s.chip.recordAt r).slotInput = some (owner, p) → s.chip.shared r owner p = true →
      exec (.release i tag sp) s = .next
        { s with
          mem := s.codeMem i tag sp 4
          chip := (s.chip.onRecord r (fun x => { x with claim := .none })).endsDone i 4 tag 0 }) ∧
    ((s.chip.recordAt r).claim ≠ .held →
      exec (.release i tag sp) s = .next
        { s with mem := s.codeMem i tag sp 4, chip := s.chip.endsRefused i 4 tag .notHolder })

/-- STEP, its checks in order: an input that does not exist is refused with NO INPUT, a claimed one with HELD and the claimant's
id. Otherwise the step, clamped to 0 to 60, is requested for LOCAL: it replaces the input's queue entry in its place, or is
appended where the queue holds fewer than 8, and the cell ends DONE with the step; in a full queue the cell ends FAILED with BUSY
and nothing else changes. The value that the cell shows after NO INPUT and after BUSY is the model's free value, which no rule gives
(log entry 9). A CLAIM that comes after the order is granted with the confirmed step as it stood. -/
def Obligations.StepRequestsLocally : Prop :=
  ∀ (i : CellId) (tag : BitVec 16) (sp : Byte) (s : State), s.chip.takes i →
    (s.chip.cfg.preampCount ≤ (s.chip.cellAt i).args[0].toNat →
      exec (.step i tag sp) s = .next
        { s with mem := s.codeMem i tag sp 10, chip := s.chip.endsRefused i 10 tag .noInput }) ∧
    ∀ p : InputId, s.chip.existing p → (s.chip.cellAt i).args[0].toNat = p.val →
      (∀ d : NodeId, s.chip.pre.inputs[p].claimant = some d →
        exec (.step i tag sp) s = .next
          { s with mem := s.codeMem i tag sp 10, chip := s.chip.endsFailed i 10 tag .held (wordOf d.val) }) ∧
      (s.chip.pre.inputs[p].claimant = none → s.chip.pre.queued p = true →
        exec (.step i tag sp) s = .next
          { s with
            mem := s.codeMem i tag sp 10
            chip := Chip.endsDone i 10 tag (wordOf (min (s.chip.cellAt i).args[1].toNat 60))
              { s.chip with pre := { s.chip.pre with
                  queue := s.chip.pre.queue.map (fun x => if x.input = p then
                    { input := p, step := clampStep (s.chip.cellAt i).args[1].toNat, who := .loc } else x)
                  inputs := upd s.chip.pre.inputs p (fun x => { x with requester := some .loc, sweep := false }) } } }) ∧
      (s.chip.pre.inputs[p].claimant = none → s.chip.pre.queued p = false → s.chip.pre.queue.length < 8 →
        exec (.step i tag sp) s = .next
          { s with
            mem := s.codeMem i tag sp 10
            chip := Chip.endsDone i 10 tag (wordOf (min (s.chip.cellAt i).args[1].toNat 60))
              { s.chip with pre := { s.chip.pre with
                  queue := s.chip.pre.queue ++
                    [{ input := p, step := clampStep (s.chip.cellAt i).args[1].toNat, who := .loc }]
                  inputs := upd s.chip.pre.inputs p (fun x => { x with requester := some .loc, sweep := false }) } } }) ∧
      (s.chip.pre.inputs[p].claimant = none → s.chip.pre.queued p = false → 8 ≤ s.chip.pre.queue.length →
        exec (.step i tag sp) s = .next
          { s with mem := s.codeMem i tag sp 10, chip := s.chip.endsRefused i 10 tag .busy }) ∧
      (s.chip.pre.inputs[p].claimant = none → ∃ t : State, exec (.step i tag sp) s = .next t ∧
        ∀ d : NodeId, (t.chip.offerClaim d p).2 = .taken ⟨stepCode s.chip.pre.inputs[p].confirmed % 256, by omega⟩)

/-- UNCLAIM of an unclaimed input completes DONE with 255. Where a peer of the roster holds it and the outbox has room, the claimant
becomes none, a DROP is appended for it with no originator, and the cell ends DONE with its id. An input that does not exist is
refused with NO INPUT. -/
def Obligations.UnclaimDropsClaimant : Prop :=
  ∀ (i : CellId) (tag : BitVec 16) (sp : Byte) (s : State), s.chip.takes i →
    (∀ p : InputId, s.chip.existing p → (s.chip.cellAt i).args[0].toNat = p.val →
      (s.chip.pre.inputs[p].claimant = none →
        exec (.unclaim i tag sp) s = .next
          { s with mem := s.codeMem i tag sp 11, chip := s.chip.endsDone i 11 tag 255 }) ∧
      ∀ d : NodeId, s.chip.pre.inputs[p].claimant = some d → s.chip.appends d →
        exec (.unclaim i tag sp) s = .next
          { s with
            mem := s.codeMem i tag sp 11
            chip := Chip.endsDone i 11 tag (wordOf d.val)
              { s.chip with
                pre := { s.chip.pre with inputs := upd s.chip.pre.inputs p (fun x => { x with claimant := none }) }
                msg := { s.chip.msg with outbox := s.chip.msg.outbox ++ [newEntry d (.drop p) .nobody] } } }) ∧
    (s.chip.cfg.preampCount ≤ (s.chip.cellAt i).args[0].toNat →
      exec (.unclaim i tag sp) s = .next
        { s with mem := s.codeMem i tag sp 11, chip := s.chip.endsRefused i 11 tag .noInput })

/-- ALLOT at the authority: an allotment within the capacity that overlaps no other entry and keeps its owner within 96 is written
to its entry, and the cell ends DONE with the draft's total; a count of 0 empties the entry, with the total of what is left. One that
exceeds the capacity is refused with CAPACITY, one that does not and overlaps another entry with OVERLAP, and one that does neither and
takes its owner above 96 with CAPACITY; an index, owner or kind that names none is refused with UNKNOWN ORDER. The value of a count of
0 is the model's reading (log entry 24). At any other node ALLOT is
refused with NOT AUTHORITY. A refusal leaves the draft as it was. -/
def Obligations.AllotEditsDraft : Prop :=
  ∀ (i : CellId) (tag : BitVec 16) (sp : Byte) (s : State), s.chip.takes i →
    (∀ (k : Fin 16) (x : Allotment), s.chip.cfg.nodeId = s.chip.cfg.authority →
      (s.chip.cellAt i).args[0].toNat = k.val → (s.chip.cellAt i).args[1].toNat = x.owner.val →
      (s.chip.cellAt i).args[2].toNat = x.first → (s.chip.cellAt i).args[3].toNat = x.count →
      (s.chip.cellAt i).args[4].toNat = kindCode x.kind →
      (x.count = 0 →
        exec (.allot i tag sp) s = .next
          { s with
            mem := s.codeMem i tag sp 12
            chip := Chip.endsDone i 12 tag (wordOf (allotTotal (draftAllots (s.chip.pln.draft.set k none))))
              { s.chip with pln := { s.chip.pln with draft := s.chip.pln.draft.set k none } } }) ∧
      (0 < x.count → s.chip.cfg.capacity < x.first + x.count →
        exec (.allot i tag sp) s = .next
          { s with mem := s.codeMem i tag sp 12, chip := s.chip.endsRefused i 12 tag .capacity }) ∧
      (0 < x.count → x.first + x.count ≤ s.chip.cfg.capacity →
        (∀ b ∈ draftAllots (s.chip.pln.draft.set k none), x.meets b = false) →
        96 < ownTotal (draftAllots (s.chip.pln.draft.set k none)) x.owner + x.count →
        exec (.allot i tag sp) s = .next
          { s with mem := s.codeMem i tag sp 12, chip := s.chip.endsRefused i 12 tag .capacity }) ∧
      (0 < x.count → x.first + x.count ≤ s.chip.cfg.capacity → (∀ b ∈ draftAllots (s.chip.pln.draft.set k none), x.meets b = false) →
        ownTotal (draftAllots (s.chip.pln.draft.set k none)) x.owner + x.count ≤ 96 →
        exec (.allot i tag sp) s = .next
          { s with
            mem := s.codeMem i tag sp 12
            chip := Chip.endsDone i 12 tag (wordOf (allotTotal (draftAllots (s.chip.pln.draft.set k (some x)))))
              { s.chip with pln := { s.chip.pln with draft := s.chip.pln.draft.set k (some x) } } }) ∧
      (0 < x.count → x.first + x.count ≤ s.chip.cfg.capacity →
        (∃ b ∈ draftAllots (s.chip.pln.draft.set k none), x.meets b = true) →
        exec (.allot i tag sp) s = .next
          { s with mem := s.codeMem i tag sp 12, chip := s.chip.endsRefused i 12 tag .overlap })) ∧
    (s.chip.cfg.nodeId = s.chip.cfg.authority →
      (15 < (s.chip.cellAt i).args[0].toNat ∨ 7 < (s.chip.cellAt i).args[1].toNat ∨ 3 < (s.chip.cellAt i).args[4].toNat) →
      exec (.allot i tag sp) s = .next
        { s with mem := s.codeMem i tag sp 12, chip := s.chip.endsRefused i 12 tag .unknownOrder }) ∧
    (s.chip.cfg.nodeId ≠ s.chip.cfg.authority →
      exec (.allot i tag sp) s = .next
        { s with mem := s.codeMem i tag sp 12, chip := s.chip.endsRefused i 12 tag .notAuthority })

/-- ANNOUNCE at the authority with no announcement running stages the sorted draft with the successor version and E equal to the
present period plus the lead clamped to 96 to 48,000, starts the staged beacon at fragment 0, and leaves the cell RUNNING until the
adoption. While an announcement runs it is refused with IN PROGRESS, and at any other node with NOT AUTHORITY. PRESENT makes its
argument, clamped to 2 to 16, the pending P and leaves the cell RUNNING until the next block boundary. That a RUNNING cell keeps its
reason and value is the model's reading (log entry 15). -/
def Obligations.AnnounceAndPresentWait : Prop :=
  ∀ (i : CellId) (tag : BitVec 16) (sp : Byte) (s : State), s.chip.takes i →
    (s.chip.cfg.nodeId = s.chip.cfg.authority → s.chip.pln.staged = none →
      exec (.announce i tag sp) s = .next
        { s with
          mem := s.codeMem i tag sp 13
          chip := Chip.staysRunning i 13 tag (s.chip.cellAt i).args .adoption
            { s.chip with pln := { s.chip.pln with
                nextStaged := 0
                staged := some
                  { plan := { version := succVersion s.chip.pln.current.version
                              allots := sortAllots (draftAllots s.chip.pln.draft) }
                    e := s.chip.cad.period + BitVec.ofInt 32 (clampInt 96 48000 (s.chip.cellAt i).args[0].toInt)
                    effective := s.chip.cad.period + BitVec.ofInt 32 (clampInt 96 48000 (s.chip.cellAt i).args[0].toInt)
                    announced := true } } } }) ∧
    (∀ st : StagedPlan, s.chip.cfg.nodeId = s.chip.cfg.authority → s.chip.pln.staged = some st → st.announced = true →
      exec (.announce i tag sp) s = .next
        { s with mem := s.codeMem i tag sp 13, chip := s.chip.endsRefused i 13 tag .inProgress }) ∧
    (s.chip.cfg.nodeId ≠ s.chip.cfg.authority →
      exec (.announce i tag sp) s = .next
        { s with mem := s.codeMem i tag sp 13, chip := s.chip.endsRefused i 13 tag .notAuthority }) ∧
    exec (.present i tag sp) s = .next
      { s with
        mem := s.codeMem i tag sp 14
        chip := (s.chip.onSel (fun x =>
          { x with pending := some (clampInt 2 16 (s.chip.cellAt i).args[0].toInt).toNat })).staysRunning i 14 tag
          (s.chip.cellAt i).args .boundary }

/-- DRILL CORRUPT sets a port's transmit mode for the length clamped to 1 to 480,000 and completes DONE with that length; DRILL SILENT
does so too, and its transmitter goes dark: the queue is emptied but for a burst that is leaving already (log entry 27; when one starts
to leave, log entry 66). A mode NORMAL
or a length 0 ends any drill on the port and the value is 0. A port or mode code that names none is refused with UNKNOWN ORDER. The
other port and everything else stay. -/
def Obligations.DrillSetsTransmitMode : Prop :=
  ∀ (i : CellId) (tag : BitVec 16) (sp : Byte) (s : State), s.chip.takes i →
    (∀ p : Port, (s.chip.cellAt i).args[0].toNat = portCode p →
      ((s.chip.cellAt i).args[1].toNat = 2 → (s.chip.cellAt i).args[2].toInt ≠ 0 →
        exec (.drill i tag sp) s = .next
          { s with
            mem := s.codeMem i tag sp 15
            chip := (s.chip.onPort p (fun x =>
              { x with txMode := .corrupt
                       drill := (clampInt 1 480000 (s.chip.cellAt i).args[2].toInt).toNat })).endsDone i 15 tag
              (wordOf (clampInt 1 480000 (s.chip.cellAt i).args[2].toInt).toNat) }) ∧
      ((s.chip.cellAt i).args[1].toNat = 1 → (s.chip.cellAt i).args[2].toInt ≠ 0 →
        exec (.drill i tag sp) s = .next
          { s with
            mem := s.codeMem i tag sp 15
            chip := (s.chip.onPort p (fun x =>
              { x with txMode := .silent
                       drill := (clampInt 1 480000 (s.chip.cellAt i).args[2].toInt).toNat
                       queue := if x.leaving = none then [] else x.queue.take 1 })).endsDone i 15 tag
              (wordOf (clampInt 1 480000 (s.chip.cellAt i).args[2].toInt).toNat) }) ∧
      ((s.chip.cellAt i).args[1].toNat = 0 ∨
          (s.chip.cellAt i).args[1].toNat ≤ 2 ∧ (s.chip.cellAt i).args[2].toInt = 0 →
        exec (.drill i tag sp) s = .next
          { s with
            mem := s.codeMem i tag sp 15
            chip := (s.chip.onPort p (fun x => { x with txMode := .normal, drill := 0 })).endsDone i 15 tag 0 })) ∧
    (1 < (s.chip.cellAt i).args[0].toNat ∨ 2 < (s.chip.cellAt i).args[1].toNat →
      exec (.drill i tag sp) s = .next
        { s with mem := s.codeMem i tag sp 15, chip := s.chip.endsRefused i 15 tag .unknownOrder })

/-- RELOCK at a follower with a reference, in LOCKED, HOLDOVER or STEP_PENDING, arms a step and completes DONE with 1; at a follower
in FREE or LOCKING nothing is armed and the value is 0. At a timing node with the WCK source it arms a step in STEP_PENDING, HOLDOVER
and FREE, with value 1; in LOCKED and LOCKING, and with the INTERNAL source, the value is 0. -/
def Obligations.RelockArmsStep : Prop :=
  ∀ (i : CellId) (tag : BitVec 16) (sp : Byte) (s : State), s.chip.takes i →
    let st := s.chip.cad.state
    let armed : State :=
      { s with
        mem := s.codeMem i tag sp 16
        chip := (s.chip.onCad (fun x => { x with stepArmed := true })).endsDone i 16 tag 1 }
    let idle : State := { s with mem := s.codeMem i tag sp 16, chip := s.chip.endsDone i 16 tag 0 }
    (s.chip.cad.role = .follower → (∃ n : NodeId, s.chip.cad.ref = some n) →
      (st = .locked ∨ st = .holdover ∨ st = .stepPending) → exec (.relock i tag sp) s = .next armed) ∧
    (s.chip.cad.role = .follower → (st = .free ∨ st = .locking) → exec (.relock i tag sp) s = .next idle) ∧
    (s.chip.cad.role = .timing → s.chip.cfg.source = .wck → (st = .stepPending ∨ st = .holdover ∨ st = .free) →
      exec (.relock i tag sp) s = .next armed) ∧
    (s.chip.cad.role = .timing → (s.chip.cfg.source = .internal ∨ st = .locked ∨ st = .locking) →
      exec (.relock i tag sp) s = .next idle)

/-- CLEARAGES sets the maximum age of every path record to none and completes DONE with the P advice as it stood; last ages,
counts, hop distances and the lap monitor stay. An advice computed with no copy taken since is 2. -/
def Obligations.ClearagesClearsMaximumAges : Prop :=
  (∀ (i : CellId) (tag : BitVec 16) (sp : Byte) (s : State), s.chip.takes i →
    exec (.clearages i tag sp) s = .next
      { s with
        mem := s.codeMem i tag sp 17
        chip := (s.chip.onSel (fun x =>
          { x with paths := x.paths.map (fun v =>
              ⟨{ v.east with maxAge := none }, { v.west with maxAge := none }⟩) })).endsDone i 17 tag
          (wordOf s.chip.sel.advice) }) ∧
  ∀ (s : Selector) (n : NodeId), s.clearAges.adviceOf n = 2

/-- RESTART, in RUN and in HALTED, at a cell that is not RUNNING: a full reset with start cause ORDER that takes the straps as they
stand; every cell, the RESTART cell among them, is at its reset value, the outbox is empty, one CONFIG (reset) event is queued, and the
loading begins. In LOADING it is not taken. At a RUNNING cell only the overrun mark is set. Items to which the manual gives no reset
value take the model's (log entry 28), and the count of free values, the model's own, is kept. -/
def Obligations.RestartIsFullReset : Prop :=
  ∀ (i : CellId) (tag : BitVec 16) (sp : Byte) (straps : Fin 16) (s : State),
    (s.chip.sys.mode ≠ .loading → (s.chip.cellAt i).state ≠ .running →
      exec (.restart i tag ⟨sp, straps⟩) s = .next
        { s with
          mem := s.codeMem i tag sp 18
          straps := straps
          chip :=
            { sys := { mode := .loading, cause := .order, load := .reading, strapBase := straps }
              rng := { port := ⟨{ light := s.chip.rng.port.east.light }, { light := s.chip.rng.port.west.light }⟩ }
              ord := { events := [{ kind := .config, period := 0, subject := 0, value := 2 }]
                       freeCount := s.chip.ord.freeCount } } }) ∧
    (s.chip.sys.mode = .loading →
      exec (.restart i tag ⟨sp, straps⟩) s = .next { s with mem := s.codeMem i tag sp 18, straps := straps }) ∧
    (s.chip.sys.mode ≠ .loading → (s.chip.cellAt i).state = .running →
      exec (.restart i tag ⟨sp, straps⟩) s = .next
        { s with
          mem := s.codeMem i tag sp 18
          straps := straps
          chip := s.chip.onCell i (fun x => { x with overrun := true }) })

/-! ## Gain and attention -/

/-- The multiplier M: a table of twelve values, each 1,048,576 × 2^(k/12) rounded to the nearest, doubled for every 12 gain units, a
negative exponent divided and rounded to the nearest with a tie upward; M(0) is unity, and over −144 to +48 it lies between 256
and 16,777,216. Each of the three stages hands it a gain within −144 to +48 alone: the compensation, the main target, and the talk
target of a talk level in that range, which every step keeps (StepKeepsRampRange). -/
def Obligations.GainMultiplierFollowsTable : Prop :=
  gainTable = [1048576, 1110928, 1176987, 1246974, 1321123, 1399681, 1482910, 1571089, 1664511, 1763488, 1868350, 1979448] ∧
  (∀ k : Fin 12, (2 * gainTable[k.val]! - 1) ^ 12 < 2097152 ^ 12 * 2 ^ k.val ∧
    2097152 ^ 12 * 2 ^ k.val < (2 * gainTable[k.val]! + 1) ^ 12) ∧
  (∀ (k : Fin 12) (e : Nat), gainM (12 * e + k.val) = gainTable[k.val]! * 2 ^ e) ∧
  (∀ (k : Fin 12) (e : Nat), gainM (k.val - 12 * ((e : Int) + 1)) = (gainTable[k.val]! + 2 ^ e) / 2 ^ (e + 1)) ∧
  gainM 0 = 1048576 ∧ gainM (-144) = 256 ∧ gainM 48 = 16777216 ∧
  (∀ g : Int, -144 ≤ g → g ≤ 48 → 256 ≤ gainM g ∧ gainM g ≤ 16777216) ∧
  (∀ raw : Int, -48 ≤ compGain raw ∧ compGain raw ≤ 48) ∧
  (∀ (trim duck : Int) (engaged : Bool), ∃ g : Int, -144 ≤ g ∧ g ≤ 48 ∧ presentTarget trim duck engaged = gainM g) ∧
  ∀ (x : Record) (talk : Vector TalkEntry 4), x.ok →
    (anyKeyed x.mask talk = false → talkTarget x.mask x.level talk = 0) ∧
    (anyKeyed x.mask talk = true → ∃ g : Int, -144 ≤ g ∧ g ≤ 48 ∧ talkTarget x.mask x.level talk = gainM g)

/-- What an evaluation does to a record, by its stages: the owner and kind are read, and a change restarts C and forgets A_last; the
input is taken; the compensation is twice the step difference for a MIC slot with both steps known, clamped, with its flag; the main
target follows presence and the duck, MUTE taking a missing record's C to 0 at once; a ramp whose target changes is re-planned with the
length of the first case that applies, and both ramps advance; the output sample is the saturated, once rounded sum of the compensated
sample by C and the talk input by Ct, with its tag. A re-planned ramp has the smallest step, at least 1, that covers the distance in
its length, and reaches its target within it. A ramp that advances moves toward its target and never past it, stays at it, and keeps its
target and its step. Rounding is to the nearest, a tie away from zero. A HOLDING entry whose hold remaining is 0 engages no duck: it is
QUIET by R147 (section 8.3), and its HOLD_END may still wait (log entry 4). A slot filed with another kind field than that of its kind
reads as step UNKNOWN and key up (log entry 67). -/
def Obligations.RecordEvaluationFollowsStages : Prop :=
  (∀ (attack release : Nat) (talk : Vector TalkEntry 4) (view : Option SlotView) (x : Record),
    (x.binding = none → view = none) →
    let y := (x.evaluate attack release talk view).1
    let now := view.map (fun v => (v.owner, v.kind))
    let heldA := if now = x.last then x.aLast else none
    let present := ∃ (v : SlotView) (q : Slot), view = some v ∧ v.slot = some q
    let keyed := ∃ e : Fin 4, x.mask.getLsbD e.val = true ∧ talk[e].state = .keyed
    let holding := ∃ e : Fin 4, x.mask.getLsbD e.val = true ∧ talk[e].state = .holding ∧ talk[e].hold ≠ some 0
    let talkSum := (((List.finRange 4).filter (fun e => x.mask.getLsbD e.val = true ∧ talk[e].state = .keyed)).map
      (fun e => talk[e].sample.toInt)).sum
    y = { x with
      kind := now.map (·.2), last := now, aLast := y.aLast, main := y.main, talkRamp := y.talkRamp
      heldSample := y.heldSample, present := y.present, ducked := y.ducked, limited := y.limited } ∧
    (y.present = true ↔ present) ∧ (y.ducked = true ↔ keyed ∨ holding) ∧
    (¬ present → y.heldSample = x.heldSample ∧ y.aLast = heldA) ∧
    (∀ (v : SlotView) (q : Slot), view = some v → v.slot = some q → y.heldSample = q.sample ∧
      (∀ st : PreStep, v.kind = .mic → q.field = .step (some st) → y.aLast = some st) ∧
      (v.kind ≠ .mic ∨ (∀ st : PreStep, q.field ≠ .step (some st)) → y.aLast = heldA)) ∧
    (∃ m : Ramp,
      (now ≠ x.last ∨ x.binding ≠ none ∧ ¬ present ∧ x.policy = .mute → m = { x.main with value := 0, target := 0 }) ∧
      (now = x.last → (x.binding = none ∨ present ∨ x.policy ≠ .mute) → m = x.main) ∧
      (¬ present → y.main.target = 0) ∧
      (present → y.main.target = gainM (max (-144) (min 48 (x.trim + if y.ducked = true then x.duck else 0)))) ∧
      (y.main.target = m.target → y.main = m.advance) ∧
      (y.main.target ≠ m.target →
        (y.main.target = 0 → y.main = (m.replan 0 x.fadeOut).advance) ∧
        (y.main.target ≠ 0 → m.target = 0 → y.main = (m.replan y.main.target x.fadeIn).advance) ∧
        (y.main.target ≠ 0 → m.target ≠ 0 →
          (x.ducked = false → y.ducked = true → y.main = (m.replan y.main.target attack).advance) ∧
          (x.ducked = true → y.ducked = false → y.main = (m.replan y.main.target release).advance) ∧
          (x.ducked = y.ducked → y.main = (m.replan y.main.target 32).advance)))) ∧
    ((keyed → y.talkRamp.target = gainM x.level) ∧ (¬ keyed → y.talkRamp.target = 0) ∧
      (y.talkRamp.target = x.talkRamp.target → y.talkRamp = x.talkRamp.advance) ∧
      (y.talkRamp.target ≠ x.talkRamp.target →
        (y.talkRamp.target = 0 → y.talkRamp = (x.talkRamp.replan 0 release).advance) ∧
        (y.talkRamp.target ≠ 0 → x.talkRamp.target = 0 →
          y.talkRamp = (x.talkRamp.replan y.talkRamp.target attack).advance) ∧
        (y.talkRamp.target ≠ 0 → x.talkRamp.target ≠ 0 →
          y.talkRamp = (x.talkRamp.replan y.talkRamp.target 32).advance))) ∧
    ∃ raw : Int,
      (∀ w a : PreStep, y.kind = some .mic → x.want = some w → y.aLast = some a → raw = 2 * ((w.val : Int) - a.val)) ∧
      (y.kind ≠ some .mic ∨ x.want = none ∨ y.aLast = none → raw = 0) ∧ (y.limited = true ↔ raw < -48 ∨ 48 < raw) ∧
      let comp := roundDiv (y.heldSample.toInt * gainM (max (-48) (min 48 raw))) 1048576
      let t := max (-8388608) (min 8388607 talkSum)
      let out := max (-8388608) (min 8388607 (roundDiv (comp * y.main.value + t * y.talkRamp.value) 1048576))
      let entry := (x.evaluate attack release talk view).2
      (¬ present → x.binding ≠ none → x.policy = .pass → entry = .pass) ∧
      (present ∨ x.binding = none ∨ x.policy ≠ .pass → ∃ (q : Sample) (g : OutTag), entry = .output q g ∧ q.toInt = out ∧
        (∀ (v : SlotView) (sl : Slot), view = some v → v.slot = some sl →
          g.valid = sl.valid ∧ g.overload = sl.overload ∧ (g.key = true ↔ v.kind = .talk ∧ sl.field = .key true) ∧
          g.loss = false ∧ g.origin = v.owner) ∧
        (¬ present → g.valid = false ∧ g.overload = false ∧ g.key = false ∧ (g.loss = true ↔ x.binding ≠ none)) ∧
        (∀ v : SlotView, view = some v → v.slot = none → g.origin = v.owner) ∧ (view = none → g.origin = 0))) ∧
  (∀ (target l : Nat) (r : Ramp), 0 < l →
    let q := r.replan target l
    let dist := ((target : Int) - r.value).natAbs
    q = { value := r.value, target := target, length := l, step := q.step } ∧ 1 ≤ q.step ∧ dist ≤ q.step * l ∧
    (q.step = 1 ∨ (q.step - 1) * l < dist) ∧ (Ramp.advance^[l] q).value = target) ∧
  (∀ r : Ramp,
    r.advance.target = r.target ∧ r.advance.step = r.step ∧ r.advance.length = r.length ∧
    (r.value = r.target → r.advance.value = r.target) ∧
    (r.value + r.step ≤ r.target → r.advance.value = r.value + r.step) ∧
    (r.value < r.target → r.target < r.value + r.step → r.advance.value = r.target) ∧
    (r.target + r.step ≤ r.value → r.advance.value = r.value - r.step) ∧
    (r.target < r.value → r.value < r.target + r.step → r.advance.value = r.target)) ∧
  ∀ (a : Int) (d : Nat), 0 < d → 0 ≤ a →
    2 * roundDiv a d * d ≤ 2 * a + d ∧ 2 * a + d < 2 * (roundDiv a d + 1) * d ∧ roundDiv (-a) d = -roundDiv a d

/-- ATTN is low in LOADING, high in HALTED, and in RUN high exactly while an event whose kind is in the attention set is queued. A
full reset empties the set, and a good load fills it. An attention event that is appended raises ATTN, one discarded on a full
queue does not change it, and after a read of the event head word ATTN follows the events left. -/
def Obligations.AttentionFollowsQueue : Prop :=
  (∀ c : Chip,
    (c.sys.mode = .loading → c.attn = false) ∧
    (c.sys.mode = .halted → c.attn = true) ∧
    (c.sys.mode = .run →
      (c.attn = true ↔ ∃ e ∈ c.ord.events, c.ord.attention.getLsbD (eventCode e.kind) = true))) ∧
  (∀ (cause : StartCause) (load : LoadState) (straps : Fin 16) (c : Chip),
    (c.fullReset cause load straps).ord.attention = 0 ∧ (c.fullReset cause load straps).attn = false) ∧
  (∀ (bytes : List Byte) (m : Image) (s : State),
    s.chip.sys.mode = .loading → s.chip.sys.load = .reading → loadCheck bytes m s.chip.windowBase = none →
    ∃ t : State, exec (.configLoad bytes m) s = .next t ∧
      ∀ k : EventKind, t.chip.ord.attention.getLsbD (eventCode k) = m.attention.getLsbD (eventCode k)) ∧
  (∀ (k : EventKind) (subject : Nat) (v : Word) (c : Chip), c.sys.mode = .run →
    c.ord.attention.getLsbD (eventCode k) = true → c.ord.events.length < 32 → (c.post k subject v).attn = true) ∧
  (∀ (k : EventKind) (subject : Nat) (v : Word) (c : Chip), 32 ≤ c.ord.events.length →
    (c.post k subject v).attn = c.attn) ∧
  ∀ (e : Event) (rest : List Event) (s : State), s.chip.sys.mode = .run → s.chip.ord.events = e :: rest →
    ∃ t : State, exec .eventHeadRead s = .next t ∧
      (t.chip.attn = true ↔ ∃ x ∈ rest, s.chip.ord.attention.getLsbD (eventCode x.kind) = true)

/-! ## Invariants that every step keeps -/

/-- Every step keeps the canonical form of the host's memory, and every position of a send bank that is not written cleared. -/
def Obligations.StepKeepsMemoryAndBankForm : Prop :=
  (∀ s t : State, Memory.wf s.mem = true → Sys2Proof.Machine.step s = .next t → Memory.wf t.mem = true) ∧
  ∀ s t : State, s.chip.banksOk → Sys2Proof.Machine.step s = .next t → t.chip.banksOk

/-- Every step keeps the event queue within 32, the outbox within 16, the preamp queue within 8 with at most one entry for an
input, and both transmit queues within 16. Every step keeps the presentation delay in RUN, and a pending P, within 2 to 16. -/
def Obligations.StepKeepsQueueAndDelayBounds : Prop :=
  (∀ s t : State, s.chip.queuesOk → Sys2Proof.Machine.step s = .next t → t.chip.queuesOk) ∧
  ∀ s t : State, s.chip.delayOk → Sys2Proof.Machine.step s = .next t → t.chip.delayOk

/-- Every step keeps every record's C and Ct, and the targets of both ramps, within 0 to 16,777,216. -/
def Obligations.StepKeepsRampRange : Prop :=
  ∀ s t : State, s.chip.rampsOk → Sys2Proof.Machine.step s = .next t → t.chip.rampsOk

/-- Every step keeps every claimant of a preamp input a member of this node's roster, in RUN and on entry to it: outside RUN no input
has a claimant, and nothing waits that could make one. -/
def Obligations.StepKeepsClaimantsMembers : Prop :=
  ∀ s t : State, s.chip.claimsOk → Sys2Proof.Machine.step s = .next t → t.chip.claimsOk
end

