-- ==== Sys2Proof/Laws/Memory.lean ====
section
/-! SUPPORT. The laws of the host's memory: the canonical form is kept by every operation, a read after a write gives what was
written, and every other byte stays. -/

namespace Sys2Proof.Machine

/-- Every entry of `m` lies above address `a`. -/
def above (a : Nat) (m : Memory) : Prop := ∀ x ∈ m, a < x.1

theorem wf_cons (k : Nat) (v : BitVec 8) (m : Memory) :
    Memory.wf ((k, v) :: m) = true ↔ v ≠ 0 ∧ above k m ∧ Memory.wf m = true := by
  induction m generalizing k v with
  | nil => simp [Memory.wf, above]
  | cons x m ih =>
    obtain ⟨k', v'⟩ := x
    have h := ih k' v'
    constructor
    · intro hw
      have hw' : v ≠ 0 ∧ k < k' ∧ Memory.wf ((k', v') :: m) = true := by
        simpa [Memory.wf, and_assoc] using hw
      obtain ⟨h1, h2, h3⟩ := hw'
      refine ⟨h1, ?_, h3⟩
      intro y hy
      rcases List.mem_cons.1 hy with rfl | hy
      · exact h2
      · exact Nat.lt_trans h2 ((h.1 h3).2.1 y hy)
    · rintro ⟨h1, h2, h3⟩
      have : k < k' := h2 (k', v') (List.mem_cons_self)
      simpa [Memory.wf, this, h3] using h1

theorem above_erase {a k : Nat} {m : Memory} (h : above a m) : above a (memErase m k) := by
  induction m with
  | nil => simpa [memErase] using h
  | cons x m ih =>
    obtain ⟨k', v'⟩ := x
    have h1 : a < k' := h (k', v') (List.mem_cons_self)
    have h2 : above a m := fun y hy => h y (List.mem_cons_of_mem _ hy)
    unfold memErase
    split
    · exact h2
    · intro y hy
      rcases List.mem_cons.1 hy with rfl | hy
      · exact h1
      · exact ih h2 y hy

theorem above_place {a k : Nat} {v : Byte} {m : Memory} (h : above a m) (hk : a < k) : above a (memPlace m k v) := by
  induction m with
  | nil =>
    intro y hy
    simp [memPlace] at hy
    subst hy
    exact hk
  | cons x m ih =>
    obtain ⟨k', v'⟩ := x
    have h1 : a < k' := h (k', v') (List.mem_cons_self)
    have h2 : above a m := fun y hy => h y (List.mem_cons_of_mem _ hy)
    unfold memPlace
    intro y hy
    split at hy
    · rcases List.mem_cons.1 hy with rfl | hy
      · exact hk
      · exact h y hy
    · split at hy
      · rcases List.mem_cons.1 hy with rfl | hy
        · exact hk
        · exact h2 y hy
      · rcases List.mem_cons.1 hy with rfl | hy
        · exact h1
        · exact ih h2 y hy

theorem wf_erase {m : Memory} (k : Nat) (h : Memory.wf m = true) : Memory.wf (memErase m k) = true := by
  induction m with
  | nil => rfl
  | cons x m ih =>
    obtain ⟨k', v'⟩ := x
    obtain ⟨h1, h2, h3⟩ := (wf_cons k' v' m).1 h
    unfold memErase
    split
    · exact h3
    · exact (wf_cons k' v' _).2 ⟨h1, above_erase h2, ih h3⟩

theorem wf_place {m : Memory} (k : Nat) {v : Byte} (hv : v ≠ 0) (h : Memory.wf m = true) :
    Memory.wf (memPlace m k v) = true := by
  induction m with
  | nil => simpa [memPlace, Memory.wf] using hv
  | cons x m ih =>
    obtain ⟨k', v'⟩ := x
    obtain ⟨h1, h2, h3⟩ := (wf_cons k' v' m).1 h
    unfold memPlace
    split
    · rename_i hlt
      refine (wf_cons k v _).2 ⟨hv, ?_, h⟩
      intro y hy
      rcases List.mem_cons.1 hy with rfl | hy
      · exact hlt
      · exact Nat.lt_trans hlt (h2 y hy)
    · rename_i hlt
      split
      · rename_i he
        subst he
        exact (wf_cons k' v m).2 ⟨hv, h2, h3⟩
      · rename_i hne
        exact (wf_cons k' v' _).2 ⟨h1, above_place h2 (by omega), ih h3⟩

/-- Storing a byte keeps the canonical form. -/
theorem wf_memPut {m : Memory} (k : Nat) (v : Byte) (h : Memory.wf m = true) : Memory.wf (memPut m k v) = true := by
  unfold memPut
  split
  · exact wf_erase k h
  · rename_i hv
    exact wf_place k hv h

theorem memByte_above {a : Nat} {m : Memory} (h : ∀ x ∈ m, a < x.1) : memByte m a = 0 := by
  induction m with
  | nil => rfl
  | cons x m ih =>
    obtain ⟨k', v'⟩ := x
    have h1 : a < k' := h (k', v') (List.mem_cons_self)
    unfold memByte
    rw [if_neg (by omega)]
    exact ih (fun y hy => h y (List.mem_cons_of_mem _ hy))

theorem memByte_erase {m : Memory} (k a : Nat) (h : Memory.wf m = true) :
    memByte (memErase m k) a = if a = k then 0 else memByte m a := by
  induction m with
  | nil => simp [memErase, memByte]
  | cons x m ih =>
    obtain ⟨k', v'⟩ := x
    obtain ⟨h1, h2, h3⟩ := (wf_cons k' v' m).1 h
    have e := ih h3
    by_cases hk : k' = k
    · subst hk
      by_cases ha : a = k'
      · subst ha
        simpa [memErase] using memByte_above h2
      · simp [memErase, memByte, ha, Ne.symm ha]
    · by_cases ha : k' = a
      · subst ha
        simp [memErase, memByte, hk]
      · simp only [memErase, hk, if_false, memByte, ha, e]

theorem memByte_place (m : Memory) (k a : Nat) (v : Byte) :
    memByte (memPlace m k v) a = if a = k then v else memByte m a := by
  induction m with
  | nil => by_cases h : k = a <;> simp [memPlace, memByte, h, eq_comm]
  | cons x m ih =>
    obtain ⟨k', v'⟩ := x
    by_cases hlt : k < k'
    · by_cases ha : a = k
      · subst ha
        simp [memPlace, hlt, memByte]
      · simp [memPlace, hlt, memByte, ha, Ne.symm ha]
    · by_cases hk : k' = k
      · subst hk
        by_cases ha : a = k'
        · subst ha
          simp [memPlace, memByte]
        · simp [memPlace, memByte, ha, Ne.symm ha]
      · by_cases ha : k' = a
        · subst ha
          simp [memPlace, hlt, hk, memByte]
        · simp only [memPlace, hlt, hk, if_false, memByte, ha, ih]

/-- A byte read after a byte is stored: the stored one where the addresses agree, the old one elsewhere. -/
theorem memByte_memPut {m : Memory} (k a : Nat) (v : Byte) (h : Memory.wf m = true) :
    memByte (memPut m k v) a = if a = k then v else memByte m a := by
  unfold memPut
  split
  · rename_i hv
    subst hv
    exact memByte_erase k a h
  · exact memByte_place m k a v

/-- A word write keeps the canonical form. -/
theorem wf_memWrite {m : Memory} (w : Nat) (d : Word) (e : BitVec 4) (h : Memory.wf m = true) :
    Memory.wf (memWrite m w d e) = true := by
  unfold memWrite
  generalize List.range 4 = l
  induction l generalizing m with
  | nil => exact h
  | cons k l ih =>
    refine ih ?_
    show Memory.wf (if e.getLsbD k then memPut m (4 * w + k) (lane d k) else m) = true
    split
    · exact wf_memPut _ _ h
    · exact h

/-- Bytes outside the written word stay. -/
theorem memByte_memWrite_other {m : Memory} (w a : Nat) (d : Word) (e : BitVec 4) (h : Memory.wf m = true)
    (ha : a / 4 ≠ w) : memByte (memWrite m w d e) a = memByte m a := by
  unfold memWrite
  have key : ∀ l : List Nat, (∀ k ∈ l, k < 4) → ∀ m : Memory, Memory.wf m = true →
      memByte (l.foldl (fun m k => if e.getLsbD k then memPut m (4 * w + k) (lane d k) else m) m) a = memByte m a := by
    intro l
    induction l with
    | nil => intros; rfl
    | cons k l ih =>
      intro hl m hm
      have hk : k < 4 := hl k List.mem_cons_self
      have hl' : ∀ k ∈ l, k < 4 := fun j hj => hl j (List.mem_cons_of_mem _ hj)
      simp only [List.foldl_cons]
      split
      · rw [ih hl' _ (wf_memPut _ _ hm), memByte_memPut _ _ _ hm, if_neg (by omega)]
      · exact ih hl' m hm
  exact key _ (fun k hk => List.mem_range.1 hk) m h

/-- Every byte lane of the written word holds the data where it was enabled and its old value elsewhere. -/
theorem memByte_memWrite_lane {m : Memory} (w k : Nat) (d : Word) (e : BitVec 4) (h : Memory.wf m = true) (hk : k < 4) :
    memByte (memWrite m w d e) (4 * w + k) = if e.getLsbD k then lane d k else memByte m (4 * w + k) := by
  unfold memWrite
  have key : ∀ l : List Nat, l.Nodup → ∀ m : Memory, Memory.wf m = true →
      memByte (l.foldl (fun m j => if e.getLsbD j then memPut m (4 * w + j) (lane d j) else m) m) (4 * w + k) =
        if k ∈ l ∧ e.getLsbD k = true then lane d k else memByte m (4 * w + k) := by
    intro l
    induction l with
    | nil => intros; simp
    | cons j l ih =>
      intro hl m hm
      obtain ⟨hj, hl'⟩ := List.nodup_cons.1 hl
      simp only [List.foldl_cons]
      by_cases hjk : k = j
      · subst hjk
        by_cases he : e.getLsbD k = true
        · rw [if_pos he, ih hl' _ (wf_memPut _ _ hm), memByte_memPut _ _ _ hm]
          simp [he]
        · rw [if_neg he, ih hl' m hm]
          simp [he]
      · split
        · rw [ih hl' _ (wf_memPut _ _ hm), memByte_memPut _ _ _ hm]
          simp [hjk]
        · rw [ih hl' m hm]
          simp [hjk]
  rw [key _ List.nodup_range m h]
  simp [hk]

/-- The memory at reset is in canonical form. -/
theorem wf_reset : Memory.wf State.reset.mem = true := rfl

end Sys2Proof.Machine
end

