-- ==== Sys2Proof/Laws/State.lean ====
section
/-! SUPPORT. The small lemmas of the record updates: what each update of the part changes, and that every other block stays. -/

namespace Sys2Proof.Machine

/-! ## onCad -/
@[simp] theorem Chip.onCad_cad (f : Cadence → Cadence) (c : Chip) : (c.onCad f).cad = f c.cad := rfl
@[simp] theorem Chip.onCad_sys (f : Cadence → Cadence) (c : Chip) : (c.onCad f).sys = c.sys := rfl
@[simp] theorem Chip.onCad_cfg (f : Cadence → Cadence) (c : Chip) : (c.onCad f).cfg = c.cfg := rfl
@[simp] theorem Chip.onCad_rng (f : Cadence → Cadence) (c : Chip) : (c.onCad f).rng = c.rng := rfl
@[simp] theorem Chip.onCad_sel (f : Cadence → Cadence) (c : Chip) : (c.onCad f).sel = c.sel := rfl
@[simp] theorem Chip.onCad_pln (f : Cadence → Cadence) (c : Chip) : (c.onCad f).pln = c.pln := rfl
@[simp] theorem Chip.onCad_msg (f : Cadence → Cadence) (c : Chip) : (c.onCad f).msg = c.msg := rfl
@[simp] theorem Chip.onCad_ret (f : Cadence → Cadence) (c : Chip) : (c.onCad f).ret = c.ret := rfl
@[simp] theorem Chip.onCad_pre (f : Cadence → Cadence) (c : Chip) : (c.onCad f).pre = c.pre := rfl
@[simp] theorem Chip.onCad_ord (f : Cadence → Cadence) (c : Chip) : (c.onCad f).ord = c.ord := rfl
@[simp] theorem Chip.onCad_tap (f : Cadence → Cadence) (c : Chip) : (c.onCad f).tap = c.tap := rfl

/-! ## onSel -/
@[simp] theorem Chip.onSel_sel (f : Selector → Selector) (c : Chip) : (c.onSel f).sel = f c.sel := rfl
@[simp] theorem Chip.onSel_sys (f : Selector → Selector) (c : Chip) : (c.onSel f).sys = c.sys := rfl
@[simp] theorem Chip.onSel_cfg (f : Selector → Selector) (c : Chip) : (c.onSel f).cfg = c.cfg := rfl
@[simp] theorem Chip.onSel_rng (f : Selector → Selector) (c : Chip) : (c.onSel f).rng = c.rng := rfl
@[simp] theorem Chip.onSel_cad (f : Selector → Selector) (c : Chip) : (c.onSel f).cad = c.cad := rfl
@[simp] theorem Chip.onSel_pln (f : Selector → Selector) (c : Chip) : (c.onSel f).pln = c.pln := rfl
@[simp] theorem Chip.onSel_msg (f : Selector → Selector) (c : Chip) : (c.onSel f).msg = c.msg := rfl
@[simp] theorem Chip.onSel_ret (f : Selector → Selector) (c : Chip) : (c.onSel f).ret = c.ret := rfl
@[simp] theorem Chip.onSel_pre (f : Selector → Selector) (c : Chip) : (c.onSel f).pre = c.pre := rfl
@[simp] theorem Chip.onSel_ord (f : Selector → Selector) (c : Chip) : (c.onSel f).ord = c.ord := rfl
@[simp] theorem Chip.onSel_tap (f : Selector → Selector) (c : Chip) : (c.onSel f).tap = c.tap := rfl

/-! ## onPort -/
@[simp] theorem Chip.onPort_rng (p : Port) (f : PortState → PortState) (c : Chip) : (c.onPort p f).rng = { c.rng with port := c.rng.port.upd p f } := rfl
@[simp] theorem Chip.onPort_sys (p : Port) (f : PortState → PortState) (c : Chip) : (c.onPort p f).sys = c.sys := rfl
@[simp] theorem Chip.onPort_cfg (p : Port) (f : PortState → PortState) (c : Chip) : (c.onPort p f).cfg = c.cfg := rfl
@[simp] theorem Chip.onPort_cad (p : Port) (f : PortState → PortState) (c : Chip) : (c.onPort p f).cad = c.cad := rfl
@[simp] theorem Chip.onPort_sel (p : Port) (f : PortState → PortState) (c : Chip) : (c.onPort p f).sel = c.sel := rfl
@[simp] theorem Chip.onPort_pln (p : Port) (f : PortState → PortState) (c : Chip) : (c.onPort p f).pln = c.pln := rfl
@[simp] theorem Chip.onPort_msg (p : Port) (f : PortState → PortState) (c : Chip) : (c.onPort p f).msg = c.msg := rfl
@[simp] theorem Chip.onPort_ret (p : Port) (f : PortState → PortState) (c : Chip) : (c.onPort p f).ret = c.ret := rfl
@[simp] theorem Chip.onPort_pre (p : Port) (f : PortState → PortState) (c : Chip) : (c.onPort p f).pre = c.pre := rfl
@[simp] theorem Chip.onPort_ord (p : Port) (f : PortState → PortState) (c : Chip) : (c.onPort p f).ord = c.ord := rfl
@[simp] theorem Chip.onPort_tap (p : Port) (f : PortState → PortState) (c : Chip) : (c.onPort p f).tap = c.tap := rfl

/-! ## onRecord -/
@[simp] theorem Chip.onRecord_ret (r : RecordId) (f : Record → Record) (c : Chip) : (c.onRecord r f).ret = { c.ret with records := upd c.ret.records r f } := rfl
@[simp] theorem Chip.onRecord_sys (r : RecordId) (f : Record → Record) (c : Chip) : (c.onRecord r f).sys = c.sys := rfl
@[simp] theorem Chip.onRecord_cfg (r : RecordId) (f : Record → Record) (c : Chip) : (c.onRecord r f).cfg = c.cfg := rfl
@[simp] theorem Chip.onRecord_rng (r : RecordId) (f : Record → Record) (c : Chip) : (c.onRecord r f).rng = c.rng := rfl
@[simp] theorem Chip.onRecord_cad (r : RecordId) (f : Record → Record) (c : Chip) : (c.onRecord r f).cad = c.cad := rfl
@[simp] theorem Chip.onRecord_sel (r : RecordId) (f : Record → Record) (c : Chip) : (c.onRecord r f).sel = c.sel := rfl
@[simp] theorem Chip.onRecord_pln (r : RecordId) (f : Record → Record) (c : Chip) : (c.onRecord r f).pln = c.pln := rfl
@[simp] theorem Chip.onRecord_msg (r : RecordId) (f : Record → Record) (c : Chip) : (c.onRecord r f).msg = c.msg := rfl
@[simp] theorem Chip.onRecord_pre (r : RecordId) (f : Record → Record) (c : Chip) : (c.onRecord r f).pre = c.pre := rfl
@[simp] theorem Chip.onRecord_ord (r : RecordId) (f : Record → Record) (c : Chip) : (c.onRecord r f).ord = c.ord := rfl
@[simp] theorem Chip.onRecord_tap (r : RecordId) (f : Record → Record) (c : Chip) : (c.onRecord r f).tap = c.tap := rfl

/-! ## onCell -/
@[simp] theorem Chip.onCell_ord (i : CellId) (f : OrderCell → OrderCell) (c : Chip) : (c.onCell i f).ord = { c.ord with cells := upd c.ord.cells i f } := rfl
@[simp] theorem Chip.onCell_sys (i : CellId) (f : OrderCell → OrderCell) (c : Chip) : (c.onCell i f).sys = c.sys := rfl
@[simp] theorem Chip.onCell_cfg (i : CellId) (f : OrderCell → OrderCell) (c : Chip) : (c.onCell i f).cfg = c.cfg := rfl
@[simp] theorem Chip.onCell_rng (i : CellId) (f : OrderCell → OrderCell) (c : Chip) : (c.onCell i f).rng = c.rng := rfl
@[simp] theorem Chip.onCell_cad (i : CellId) (f : OrderCell → OrderCell) (c : Chip) : (c.onCell i f).cad = c.cad := rfl
@[simp] theorem Chip.onCell_sel (i : CellId) (f : OrderCell → OrderCell) (c : Chip) : (c.onCell i f).sel = c.sel := rfl
@[simp] theorem Chip.onCell_pln (i : CellId) (f : OrderCell → OrderCell) (c : Chip) : (c.onCell i f).pln = c.pln := rfl
@[simp] theorem Chip.onCell_msg (i : CellId) (f : OrderCell → OrderCell) (c : Chip) : (c.onCell i f).msg = c.msg := rfl
@[simp] theorem Chip.onCell_ret (i : CellId) (f : OrderCell → OrderCell) (c : Chip) : (c.onCell i f).ret = c.ret := rfl
@[simp] theorem Chip.onCell_pre (i : CellId) (f : OrderCell → OrderCell) (c : Chip) : (c.onCell i f).pre = c.pre := rfl
@[simp] theorem Chip.onCell_tap (i : CellId) (f : OrderCell → OrderCell) (c : Chip) : (c.onCell i f).tap = c.tap := rfl

/-! ## withOutbox -/
@[simp] theorem Chip.withOutbox_msg (o : List OutEntry) (c : Chip) : (c.withOutbox o).msg = { c.msg with outbox := o } := rfl
@[simp] theorem Chip.withOutbox_sys (o : List OutEntry) (c : Chip) : (c.withOutbox o).sys = c.sys := rfl
@[simp] theorem Chip.withOutbox_cfg (o : List OutEntry) (c : Chip) : (c.withOutbox o).cfg = c.cfg := rfl
@[simp] theorem Chip.withOutbox_rng (o : List OutEntry) (c : Chip) : (c.withOutbox o).rng = c.rng := rfl
@[simp] theorem Chip.withOutbox_cad (o : List OutEntry) (c : Chip) : (c.withOutbox o).cad = c.cad := rfl
@[simp] theorem Chip.withOutbox_sel (o : List OutEntry) (c : Chip) : (c.withOutbox o).sel = c.sel := rfl
@[simp] theorem Chip.withOutbox_pln (o : List OutEntry) (c : Chip) : (c.withOutbox o).pln = c.pln := rfl
@[simp] theorem Chip.withOutbox_ret (o : List OutEntry) (c : Chip) : (c.withOutbox o).ret = c.ret := rfl
@[simp] theorem Chip.withOutbox_pre (o : List OutEntry) (c : Chip) : (c.withOutbox o).pre = c.pre := rfl
@[simp] theorem Chip.withOutbox_ord (o : List OutEntry) (c : Chip) : (c.withOutbox o).ord = c.ord := rfl
@[simp] theorem Chip.withOutbox_tap (o : List OutEntry) (c : Chip) : (c.withOutbox o).tap = c.tap := rfl

/-! ## queueAnswer -/
@[simp] theorem Chip.queueAnswer_msg (a : Answer) (c : Chip) : (c.queueAnswer a).msg = { c.msg with answers := Machine.queueAnswer a c.msg.answers } := rfl
@[simp] theorem Chip.queueAnswer_sys (a : Answer) (c : Chip) : (c.queueAnswer a).sys = c.sys := rfl
@[simp] theorem Chip.queueAnswer_cfg (a : Answer) (c : Chip) : (c.queueAnswer a).cfg = c.cfg := rfl
@[simp] theorem Chip.queueAnswer_rng (a : Answer) (c : Chip) : (c.queueAnswer a).rng = c.rng := rfl
@[simp] theorem Chip.queueAnswer_cad (a : Answer) (c : Chip) : (c.queueAnswer a).cad = c.cad := rfl
@[simp] theorem Chip.queueAnswer_sel (a : Answer) (c : Chip) : (c.queueAnswer a).sel = c.sel := rfl
@[simp] theorem Chip.queueAnswer_pln (a : Answer) (c : Chip) : (c.queueAnswer a).pln = c.pln := rfl
@[simp] theorem Chip.queueAnswer_ret (a : Answer) (c : Chip) : (c.queueAnswer a).ret = c.ret := rfl
@[simp] theorem Chip.queueAnswer_pre (a : Answer) (c : Chip) : (c.queueAnswer a).pre = c.pre := rfl
@[simp] theorem Chip.queueAnswer_ord (a : Answer) (c : Chip) : (c.queueAnswer a).ord = c.ord := rfl
@[simp] theorem Chip.queueAnswer_tap (a : Answer) (c : Chip) : (c.queueAnswer a).tap = c.tap := rfl

/-! ## keepRunning -/
@[simp] theorem Chip.keepRunning_sys (i : CellId) (o : OrderInProgress) (c : Chip) : (c.keepRunning i o).sys = c.sys := rfl
@[simp] theorem Chip.keepRunning_cfg (i : CellId) (o : OrderInProgress) (c : Chip) : (c.keepRunning i o).cfg = c.cfg := rfl
@[simp] theorem Chip.keepRunning_rng (i : CellId) (o : OrderInProgress) (c : Chip) : (c.keepRunning i o).rng = c.rng := rfl
@[simp] theorem Chip.keepRunning_cad (i : CellId) (o : OrderInProgress) (c : Chip) : (c.keepRunning i o).cad = c.cad := rfl
@[simp] theorem Chip.keepRunning_sel (i : CellId) (o : OrderInProgress) (c : Chip) : (c.keepRunning i o).sel = c.sel := rfl
@[simp] theorem Chip.keepRunning_pln (i : CellId) (o : OrderInProgress) (c : Chip) : (c.keepRunning i o).pln = c.pln := rfl
@[simp] theorem Chip.keepRunning_msg (i : CellId) (o : OrderInProgress) (c : Chip) : (c.keepRunning i o).msg = c.msg := rfl
@[simp] theorem Chip.keepRunning_ret (i : CellId) (o : OrderInProgress) (c : Chip) : (c.keepRunning i o).ret = c.ret := rfl
@[simp] theorem Chip.keepRunning_pre (i : CellId) (o : OrderInProgress) (c : Chip) : (c.keepRunning i o).pre = c.pre := rfl
@[simp] theorem Chip.keepRunning_tap (i : CellId) (o : OrderInProgress) (c : Chip) : (c.keepRunning i o).tap = c.tap := rfl

/-! ## post -/
@[simp] theorem Chip.post_sys (k : EventKind) (n : Nat) (v : Word) (c : Chip) : (c.post k n v).sys = c.sys := rfl
@[simp] theorem Chip.post_cfg (k : EventKind) (n : Nat) (v : Word) (c : Chip) : (c.post k n v).cfg = c.cfg := rfl
@[simp] theorem Chip.post_rng (k : EventKind) (n : Nat) (v : Word) (c : Chip) : (c.post k n v).rng = c.rng := rfl
@[simp] theorem Chip.post_cad (k : EventKind) (n : Nat) (v : Word) (c : Chip) : (c.post k n v).cad = c.cad := rfl
@[simp] theorem Chip.post_sel (k : EventKind) (n : Nat) (v : Word) (c : Chip) : (c.post k n v).sel = c.sel := rfl
@[simp] theorem Chip.post_pln (k : EventKind) (n : Nat) (v : Word) (c : Chip) : (c.post k n v).pln = c.pln := rfl
@[simp] theorem Chip.post_msg (k : EventKind) (n : Nat) (v : Word) (c : Chip) : (c.post k n v).msg = c.msg := rfl
@[simp] theorem Chip.post_ret (k : EventKind) (n : Nat) (v : Word) (c : Chip) : (c.post k n v).ret = c.ret := rfl
@[simp] theorem Chip.post_pre (k : EventKind) (n : Nat) (v : Word) (c : Chip) : (c.post k n v).pre = c.pre := rfl
@[simp] theorem Chip.post_tap (k : EventKind) (n : Nat) (v : Word) (c : Chip) : (c.post k n v).tap = c.tap := rfl

/-! ## markOverrun -/
@[simp] theorem Chip.markOverrun_sys (i : CellId) (c : Chip) : (c.markOverrun i).sys = c.sys := rfl
@[simp] theorem Chip.markOverrun_cfg (i : CellId) (c : Chip) : (c.markOverrun i).cfg = c.cfg := rfl
@[simp] theorem Chip.markOverrun_rng (i : CellId) (c : Chip) : (c.markOverrun i).rng = c.rng := rfl
@[simp] theorem Chip.markOverrun_cad (i : CellId) (c : Chip) : (c.markOverrun i).cad = c.cad := rfl
@[simp] theorem Chip.markOverrun_sel (i : CellId) (c : Chip) : (c.markOverrun i).sel = c.sel := rfl
@[simp] theorem Chip.markOverrun_pln (i : CellId) (c : Chip) : (c.markOverrun i).pln = c.pln := rfl
@[simp] theorem Chip.markOverrun_msg (i : CellId) (c : Chip) : (c.markOverrun i).msg = c.msg := rfl
@[simp] theorem Chip.markOverrun_ret (i : CellId) (c : Chip) : (c.markOverrun i).ret = c.ret := rfl
@[simp] theorem Chip.markOverrun_pre (i : CellId) (c : Chip) : (c.markOverrun i).pre = c.pre := rfl
@[simp] theorem Chip.markOverrun_tap (i : CellId) (c : Chip) : (c.markOverrun i).tap = c.tap := rfl

/-! ## recordCode -/
@[simp] theorem Chip.recordCode_sys (i : CellId) (tag : BitVec 16) (code : Byte) (c : Chip) : (c.recordCode i tag code).sys = c.sys := rfl
@[simp] theorem Chip.recordCode_cfg (i : CellId) (tag : BitVec 16) (code : Byte) (c : Chip) : (c.recordCode i tag code).cfg = c.cfg := rfl
@[simp] theorem Chip.recordCode_rng (i : CellId) (tag : BitVec 16) (code : Byte) (c : Chip) : (c.recordCode i tag code).rng = c.rng := rfl
@[simp] theorem Chip.recordCode_cad (i : CellId) (tag : BitVec 16) (code : Byte) (c : Chip) : (c.recordCode i tag code).cad = c.cad := rfl
@[simp] theorem Chip.recordCode_sel (i : CellId) (tag : BitVec 16) (code : Byte) (c : Chip) : (c.recordCode i tag code).sel = c.sel := rfl
@[simp] theorem Chip.recordCode_pln (i : CellId) (tag : BitVec 16) (code : Byte) (c : Chip) : (c.recordCode i tag code).pln = c.pln := rfl
@[simp] theorem Chip.recordCode_msg (i : CellId) (tag : BitVec 16) (code : Byte) (c : Chip) : (c.recordCode i tag code).msg = c.msg := rfl
@[simp] theorem Chip.recordCode_ret (i : CellId) (tag : BitVec 16) (code : Byte) (c : Chip) : (c.recordCode i tag code).ret = c.ret := rfl
@[simp] theorem Chip.recordCode_pre (i : CellId) (tag : BitVec 16) (code : Byte) (c : Chip) : (c.recordCode i tag code).pre = c.pre := rfl
@[simp] theorem Chip.recordCode_tap (i : CellId) (tag : BitVec 16) (code : Byte) (c : Chip) : (c.recordCode i tag code).tap = c.tap := rfl

/-! ## holdEnd -/
@[simp] theorem Chip.holdEnd_sys (i : Fin 4) (c : Chip) : (c.holdEnd i).sys = c.sys := rfl
@[simp] theorem Chip.holdEnd_cfg (i : Fin 4) (c : Chip) : (c.holdEnd i).cfg = c.cfg := rfl
@[simp] theorem Chip.holdEnd_rng (i : Fin 4) (c : Chip) : (c.holdEnd i).rng = c.rng := rfl
@[simp] theorem Chip.holdEnd_cad (i : Fin 4) (c : Chip) : (c.holdEnd i).cad = c.cad := rfl
@[simp] theorem Chip.holdEnd_sel (i : Fin 4) (c : Chip) : (c.holdEnd i).sel = c.sel := rfl
@[simp] theorem Chip.holdEnd_pln (i : Fin 4) (c : Chip) : (c.holdEnd i).pln = c.pln := rfl
@[simp] theorem Chip.holdEnd_msg (i : Fin 4) (c : Chip) : (c.holdEnd i).msg = c.msg := rfl
@[simp] theorem Chip.holdEnd_pre (i : Fin 4) (c : Chip) : (c.holdEnd i).pre = c.pre := rfl
@[simp] theorem Chip.holdEnd_ord (i : Fin 4) (c : Chip) : (c.holdEnd i).ord = c.ord := rfl
@[simp] theorem Chip.holdEnd_tap (i : Fin 4) (c : Chip) : (c.holdEnd i).tap = c.tap := rfl

/-! ## settleEnd -/
@[simp] theorem Chip.settleEnd_pre (i : InputId) (c : Chip) : (c.settleEnd i).pre = c.pre.settleEnd c.cad.period i := rfl
@[simp] theorem Chip.settleEnd_sys (i : InputId) (c : Chip) : (c.settleEnd i).sys = c.sys := rfl
@[simp] theorem Chip.settleEnd_cfg (i : InputId) (c : Chip) : (c.settleEnd i).cfg = c.cfg := rfl
@[simp] theorem Chip.settleEnd_rng (i : InputId) (c : Chip) : (c.settleEnd i).rng = c.rng := rfl
@[simp] theorem Chip.settleEnd_cad (i : InputId) (c : Chip) : (c.settleEnd i).cad = c.cad := rfl
@[simp] theorem Chip.settleEnd_sel (i : InputId) (c : Chip) : (c.settleEnd i).sel = c.sel := rfl
@[simp] theorem Chip.settleEnd_pln (i : InputId) (c : Chip) : (c.settleEnd i).pln = c.pln := rfl
@[simp] theorem Chip.settleEnd_msg (i : InputId) (c : Chip) : (c.settleEnd i).msg = c.msg := rfl
@[simp] theorem Chip.settleEnd_ret (i : InputId) (c : Chip) : (c.settleEnd i).ret = c.ret := rfl
@[simp] theorem Chip.settleEnd_ord (i : InputId) (c : Chip) : (c.settleEnd i).ord = c.ord := rfl
@[simp] theorem Chip.settleEnd_tap (i : InputId) (c : Chip) : (c.settleEnd i).tap = c.tap := rfl

/-! ## startTransaction -/
@[simp] theorem Chip.startTransaction_pre (c : Chip) : (c.startTransaction).pre = c.pre.start c.cfg.initial := rfl
@[simp] theorem Chip.startTransaction_sys (c : Chip) : (c.startTransaction).sys = c.sys := rfl
@[simp] theorem Chip.startTransaction_cfg (c : Chip) : (c.startTransaction).cfg = c.cfg := rfl
@[simp] theorem Chip.startTransaction_rng (c : Chip) : (c.startTransaction).rng = c.rng := rfl
@[simp] theorem Chip.startTransaction_cad (c : Chip) : (c.startTransaction).cad = c.cad := rfl
@[simp] theorem Chip.startTransaction_sel (c : Chip) : (c.startTransaction).sel = c.sel := rfl
@[simp] theorem Chip.startTransaction_pln (c : Chip) : (c.startTransaction).pln = c.pln := rfl
@[simp] theorem Chip.startTransaction_msg (c : Chip) : (c.startTransaction).msg = c.msg := rfl
@[simp] theorem Chip.startTransaction_ret (c : Chip) : (c.startTransaction).ret = c.ret := rfl
@[simp] theorem Chip.startTransaction_ord (c : Chip) : (c.startTransaction).ord = c.ord := rfl
@[simp] theorem Chip.startTransaction_tap (c : Chip) : (c.startTransaction).tap = c.tap := rfl

/-! ## raiseStrobe -/
@[simp] theorem Chip.raiseStrobe_tap (c : Chip) : (c.raiseStrobe).tap = { c.tap with strobe := some c.cfg.blockWidth } := rfl
@[simp] theorem Chip.raiseStrobe_sys (c : Chip) : (c.raiseStrobe).sys = c.sys := rfl
@[simp] theorem Chip.raiseStrobe_cfg (c : Chip) : (c.raiseStrobe).cfg = c.cfg := rfl
@[simp] theorem Chip.raiseStrobe_rng (c : Chip) : (c.raiseStrobe).rng = c.rng := rfl
@[simp] theorem Chip.raiseStrobe_cad (c : Chip) : (c.raiseStrobe).cad = c.cad := rfl
@[simp] theorem Chip.raiseStrobe_sel (c : Chip) : (c.raiseStrobe).sel = c.sel := rfl
@[simp] theorem Chip.raiseStrobe_pln (c : Chip) : (c.raiseStrobe).pln = c.pln := rfl
@[simp] theorem Chip.raiseStrobe_msg (c : Chip) : (c.raiseStrobe).msg = c.msg := rfl
@[simp] theorem Chip.raiseStrobe_ret (c : Chip) : (c.raiseStrobe).ret = c.ret := rfl
@[simp] theorem Chip.raiseStrobe_pre (c : Chip) : (c.raiseStrobe).pre = c.pre := rfl
@[simp] theorem Chip.raiseStrobe_ord (c : Chip) : (c.raiseStrobe).ord = c.ord := rfl

/-! ## hand -/
@[simp] theorem TapUnit.hand_taps (d : Nat) (n : Period) (t : TapUnit) : (t.hand d n).taps = t.taps := by
  unfold TapUnit.hand; dsimp only; split <;> rfl
@[simp] theorem TapUnit.hand_banks (d : Nat) (n : Period) (t : TapUnit) : (t.hand d n).banks = t.banks := by
  unfold TapUnit.hand; dsimp only; split <;> rfl
@[simp] theorem TapUnit.hand_frozen (d : Nat) (n : Period) (t : TapUnit) : (t.hand d n).frozen = t.frozen := by
  unfold TapUnit.hand; dsimp only; split <;> rfl
@[simp] theorem TapUnit.hand_strobe (d : Nat) (n : Period) (t : TapUnit) : (t.hand d n).strobe = t.strobe := by
  unfold TapUnit.hand; dsimp only; split <;> rfl
@[simp] theorem TapUnit.hand_j (d : Nat) (n : Period) (t : TapUnit) : (t.hand d n).j = t.j := by
  unfold TapUnit.hand; dsimp only; split <;> rfl
/-- An eligible block is shown by its half, and every later block is eligible from then on (R116, R118). -/
theorem TapUnit.hand_of_eligible (d : Nat) (n : Period) (t : TapUnit) (h : t.isEligible n = true) :
    t.hand d n =
      { t with shown := t.shown.set (Fin.ofNat 2 (blockOf d n)) (some (blockOf d n)), eligible := none } := by
  simp [TapUnit.hand, h]
/-- The half of a block that is not eligible shows nothing (R116). -/
theorem TapUnit.hand_of_not_eligible (d : Nat) (n : Period) (t : TapUnit) (h : t.isEligible n = false) :
    t.hand d n = { t with shown := t.shown.set (Fin.ofNat 2 (blockOf d n)) none } := by
  simp [TapUnit.hand, h]

/-! ## handover -/
@[simp] theorem Chip.handover_sys (c : Chip) : (c.handover).sys = c.sys := rfl
@[simp] theorem Chip.handover_cfg (c : Chip) : (c.handover).cfg = c.cfg := rfl
@[simp] theorem Chip.handover_rng (c : Chip) : (c.handover).rng = c.rng := rfl
@[simp] theorem Chip.handover_cad (c : Chip) : (c.handover).cad = c.cad := rfl
@[simp] theorem Chip.handover_sel (c : Chip) : (c.handover).sel = c.sel := rfl
@[simp] theorem Chip.handover_pln (c : Chip) : (c.handover).pln = c.pln := rfl
@[simp] theorem Chip.handover_msg (c : Chip) : (c.handover).msg = c.msg := rfl
@[simp] theorem Chip.handover_ret (c : Chip) : (c.handover).ret = c.ret := rfl
@[simp] theorem Chip.handover_pre (c : Chip) : (c.handover).pre = c.pre := rfl
@[simp] theorem Chip.handover_ord (c : Chip) : (c.handover).ord = c.ord := rfl
/-- The handover of a boundary hands the block before the last J + 1 over (R116). -/
theorem Chip.handover_tap (c : Chip) : (c.handover).tap =
    c.tap.hand c.cfg.blockLen (c.cad.period - BitVec.ofNat 32 ((1 + c.tap.j) * c.cfg.blockLen)) := rfl

/-! ## restartHandover -/
@[simp] theorem Chip.restartHandover_sys (m : Period) (c : Chip) : (c.restartHandover m).sys = c.sys := rfl
@[simp] theorem Chip.restartHandover_cfg (m : Period) (c : Chip) : (c.restartHandover m).cfg = c.cfg := rfl
@[simp] theorem Chip.restartHandover_rng (m : Period) (c : Chip) : (c.restartHandover m).rng = c.rng := rfl
@[simp] theorem Chip.restartHandover_cad (m : Period) (c : Chip) : (c.restartHandover m).cad = c.cad := rfl
@[simp] theorem Chip.restartHandover_sel (m : Period) (c : Chip) : (c.restartHandover m).sel = c.sel := rfl
@[simp] theorem Chip.restartHandover_pln (m : Period) (c : Chip) : (c.restartHandover m).pln = c.pln := rfl
@[simp] theorem Chip.restartHandover_msg (m : Period) (c : Chip) : (c.restartHandover m).msg = c.msg := rfl
@[simp] theorem Chip.restartHandover_ret (m : Period) (c : Chip) : (c.restartHandover m).ret = c.ret := rfl
@[simp] theorem Chip.restartHandover_pre (m : Period) (c : Chip) : (c.restartHandover m).pre = c.pre := rfl
@[simp] theorem Chip.restartHandover_ord (m : Period) (c : Chip) : (c.restartHandover m).ord = c.ord := rfl

/-! ## talkStage -/
@[simp] theorem Chip.talkStage_sys (v : Presentation) (c : Chip) : (c.talkStage v).sys = c.sys := rfl
@[simp] theorem Chip.talkStage_cfg (v : Presentation) (c : Chip) : (c.talkStage v).cfg = c.cfg := rfl
@[simp] theorem Chip.talkStage_rng (v : Presentation) (c : Chip) : (c.talkStage v).rng = c.rng := rfl
@[simp] theorem Chip.talkStage_cad (v : Presentation) (c : Chip) : (c.talkStage v).cad = c.cad := rfl
@[simp] theorem Chip.talkStage_sel (v : Presentation) (c : Chip) : (c.talkStage v).sel = c.sel := rfl
@[simp] theorem Chip.talkStage_pln (v : Presentation) (c : Chip) : (c.talkStage v).pln = c.pln := rfl
@[simp] theorem Chip.talkStage_msg (v : Presentation) (c : Chip) : (c.talkStage v).msg = c.msg := rfl
@[simp] theorem Chip.talkStage_pre (v : Presentation) (c : Chip) : (c.talkStage v).pre = c.pre := rfl
@[simp] theorem Chip.talkStage_ord (v : Presentation) (c : Chip) : (c.talkStage v).ord = c.ord := rfl
@[simp] theorem Chip.talkStage_tap (v : Presentation) (c : Chip) : (c.talkStage v).tap = c.tap := rfl

/-! ## recordStage -/
@[simp] theorem Chip.recordStage_sys (v : Presentation) (c : Chip) : (c.recordStage v).sys = c.sys := rfl
@[simp] theorem Chip.recordStage_cfg (v : Presentation) (c : Chip) : (c.recordStage v).cfg = c.cfg := rfl
@[simp] theorem Chip.recordStage_rng (v : Presentation) (c : Chip) : (c.recordStage v).rng = c.rng := rfl
@[simp] theorem Chip.recordStage_cad (v : Presentation) (c : Chip) : (c.recordStage v).cad = c.cad := rfl
@[simp] theorem Chip.recordStage_sel (v : Presentation) (c : Chip) : (c.recordStage v).sel = c.sel := rfl
@[simp] theorem Chip.recordStage_pln (v : Presentation) (c : Chip) : (c.recordStage v).pln = c.pln := rfl
@[simp] theorem Chip.recordStage_msg (v : Presentation) (c : Chip) : (c.recordStage v).msg = c.msg := rfl
@[simp] theorem Chip.recordStage_pre (v : Presentation) (c : Chip) : (c.recordStage v).pre = c.pre := rfl
@[simp] theorem Chip.recordStage_ord (v : Presentation) (c : Chip) : (c.recordStage v).ord = c.ord := rfl
@[simp] theorem Chip.recordStage_tap (v : Presentation) (c : Chip) : (c.recordStage v).tap = c.tap := rfl

/-! ## writeArgument -/
@[simp] theorem Chip.writeArgument_sys (i : CellId) (k : Fin 7) (d : Word) (e : BitVec 4) (c : Chip) : (c.writeArgument i k d e).sys = c.sys := rfl
@[simp] theorem Chip.writeArgument_cfg (i : CellId) (k : Fin 7) (d : Word) (e : BitVec 4) (c : Chip) : (c.writeArgument i k d e).cfg = c.cfg := rfl
@[simp] theorem Chip.writeArgument_rng (i : CellId) (k : Fin 7) (d : Word) (e : BitVec 4) (c : Chip) : (c.writeArgument i k d e).rng = c.rng := rfl
@[simp] theorem Chip.writeArgument_cad (i : CellId) (k : Fin 7) (d : Word) (e : BitVec 4) (c : Chip) : (c.writeArgument i k d e).cad = c.cad := rfl
@[simp] theorem Chip.writeArgument_sel (i : CellId) (k : Fin 7) (d : Word) (e : BitVec 4) (c : Chip) : (c.writeArgument i k d e).sel = c.sel := rfl
@[simp] theorem Chip.writeArgument_pln (i : CellId) (k : Fin 7) (d : Word) (e : BitVec 4) (c : Chip) : (c.writeArgument i k d e).pln = c.pln := rfl
@[simp] theorem Chip.writeArgument_msg (i : CellId) (k : Fin 7) (d : Word) (e : BitVec 4) (c : Chip) : (c.writeArgument i k d e).msg = c.msg := rfl
@[simp] theorem Chip.writeArgument_ret (i : CellId) (k : Fin 7) (d : Word) (e : BitVec 4) (c : Chip) : (c.writeArgument i k d e).ret = c.ret := rfl
@[simp] theorem Chip.writeArgument_pre (i : CellId) (k : Fin 7) (d : Word) (e : BitVec 4) (c : Chip) : (c.writeArgument i k d e).pre = c.pre := rfl
@[simp] theorem Chip.writeArgument_tap (i : CellId) (k : Fin 7) (d : Word) (e : BitVec 4) (c : Chip) : (c.writeArgument i k d e).tap = c.tap := rfl

/-! ## fileOwn -/
@[simp] theorem Chip.fileOwn_sys (c : Chip) : (c.fileOwn).sys = c.sys := rfl
@[simp] theorem Chip.fileOwn_cfg (c : Chip) : (c.fileOwn).cfg = c.cfg := rfl
@[simp] theorem Chip.fileOwn_rng (c : Chip) : (c.fileOwn).rng = c.rng := rfl
@[simp] theorem Chip.fileOwn_cad (c : Chip) : (c.fileOwn).cad = c.cad := rfl
@[simp] theorem Chip.fileOwn_pln (c : Chip) : (c.fileOwn).pln = c.pln := rfl
@[simp] theorem Chip.fileOwn_msg (c : Chip) : (c.fileOwn).msg = c.msg := rfl
@[simp] theorem Chip.fileOwn_ret (c : Chip) : (c.fileOwn).ret = c.ret := rfl
@[simp] theorem Chip.fileOwn_pre (c : Chip) : (c.fileOwn).pre = c.pre := rfl
@[simp] theorem Chip.fileOwn_ord (c : Chip) : (c.fileOwn).ord = c.ord := rfl
@[simp] theorem Chip.fileOwn_tap (c : Chip) : (c.fileOwn).tap = c.tap := rfl

/-! ## beginPeriod -/
@[simp] theorem Chip.beginPeriod_cad (n : Period) (c : Chip) : (c.beginPeriod n).cad = c.cad.begin n := rfl
@[simp] theorem Chip.beginPeriod_sys (n : Period) (c : Chip) : (c.beginPeriod n).sys = c.sys := rfl
@[simp] theorem Chip.beginPeriod_cfg (n : Period) (c : Chip) : (c.beginPeriod n).cfg = c.cfg := rfl
@[simp] theorem Chip.beginPeriod_rng (n : Period) (c : Chip) : (c.beginPeriod n).rng = c.rng := rfl
@[simp] theorem Chip.beginPeriod_sel (n : Period) (c : Chip) : (c.beginPeriod n).sel = c.sel := rfl
@[simp] theorem Chip.beginPeriod_pln (n : Period) (c : Chip) : (c.beginPeriod n).pln = c.pln.markExpiry n := rfl
@[simp] theorem Chip.beginPeriod_msg (n : Period) (c : Chip) : (c.beginPeriod n).msg = c.msg := rfl
@[simp] theorem Chip.beginPeriod_ret (n : Period) (c : Chip) : (c.beginPeriod n).ret = c.ret := rfl
@[simp] theorem Chip.beginPeriod_pre (n : Period) (c : Chip) : (c.beginPeriod n).pre = c.pre := rfl
@[simp] theorem Chip.beginPeriod_ord (n : Period) (c : Chip) : (c.beginPeriod n).ord = c.ord := rfl
@[simp] theorem Chip.beginPeriod_tap (n : Period) (c : Chip) : (c.beginPeriod n).tap = c.tap := rfl

/-! ## The machine -/
@[simp] theorem State.onChip_chip (f : Chip → Chip) (s : State) : (s.onChip f).chip = f s.chip := rfl
@[simp] theorem State.onChip_pending (f : Chip → Chip) (s : State) : (s.onChip f).pending = s.pending := rfl
@[simp] theorem State.onChip_mem (f : Chip → Chip) (s : State) : (s.onChip f).mem = s.mem := rfl
@[simp] theorem State.onChip_straps (f : Chip → Chip) (s : State) : (s.onChip f).straps = s.straps := rfl
@[simp] theorem State.hostWrite_pending (x : Nat) (d : Word) (e : BitVec 4) (s : State) : (s.hostWrite x d e).pending = s.pending := rfl
@[simp] theorem State.hostWrite_straps (x : Nat) (d : Word) (e : BitVec 4) (s : State) : (s.hostWrite x d e).straps = s.straps := rfl
@[simp] theorem State.codeWord_pending (i : CellId) (tag : BitVec 16) (sp code : Byte) (f : Chip → Chip) (s : State) : (s.codeWord i tag sp code f).pending = s.pending := rfl
@[simp] theorem State.codeWord_straps (i : CellId) (tag : BitVec 16) (sp code : Byte) (f : Chip → Chip) (s : State) : (s.codeWord i tag sp code f).straps = s.straps := rfl
@[simp] theorem State.argumentWrite_pending (i : CellId) (k : Fin 7) (d : Word) (e : BitVec 4) (s : State) : (s.argumentWrite i k d e).pending = s.pending := rfl
@[simp] theorem State.argumentWrite_straps (i : CellId) (k : Fin 7) (d : Word) (e : BitVec 4) (s : State) : (s.argumentWrite i k d e).straps = s.straps := rfl
@[simp] theorem State.hostWrite_mem (x : Nat) (d : Word) (e : BitVec 4) (s : State) :
    (s.hostWrite x d e).mem = memWrite s.mem x d e := rfl
@[simp] theorem State.hostWrite_chip (x : Nat) (d : Word) (e : BitVec 4) (s : State) :
    (s.hostWrite x d e).chip = s.chip.takeWrite x d e s.straps := rfl
@[simp] theorem State.codeWord_chip (i : CellId) (tag : BitVec 16) (sp code : Byte) (f : Chip → Chip) (s : State) :
    (s.codeWord i tag sp code f).chip = f s.chip := rfl
@[simp] theorem State.codeWord_mem (i : CellId) (tag : BitVec 16) (sp code : Byte) (f : Chip → Chip) (s : State) :
    (s.codeWord i tag sp code f).mem = memWrite s.mem (s.chip.cellWord i 0) (Machine.codeWord tag sp code) 15 := rfl
@[simp] theorem State.argumentWrite_chip (i : CellId) (k : Fin 7) (d : Word) (e : BitVec 4) (s : State) :
    (s.argumentWrite i k d e).chip = s.chip.writeArgument i k d e := rfl
@[simp] theorem State.argumentWrite_mem (i : CellId) (k : Fin 7) (d : Word) (e : BitVec 4) (s : State) :
    (s.argumentWrite i k d e).mem = memWrite s.mem (s.chip.cellWord i (k.val + 1)) d e := rfl

/-! ## Ports -/
@[simp] theorem PortState.dark_rx (s : PortState) : s.dark.rx = s.rx := rfl
@[simp] theorem PortState.dark_light (s : PortState) : s.dark.light = s.light := rfl
@[simp] theorem PortState.dark_goodRun (s : PortState) : s.dark.goodRun = s.goodRun := rfl
@[simp] theorem PortState.dark_windowTicks (s : PortState) : s.dark.windowTicks = s.windowTicks := rfl
@[simp] theorem PortState.dark_windowBad (s : PortState) : s.dark.windowBad = s.windowBad := rfl
@[simp] theorem PortState.dark_txMode (s : PortState) : s.dark.txMode = s.txMode := rfl
@[simp] theorem PortState.dark_drill (s : PortState) : s.dark.drill = s.drill := rfl
@[simp] theorem PortState.dark_nGood (s : PortState) : s.dark.nGood = s.nGood := rfl
@[simp] theorem PortState.dark_nBad (s : PortState) : s.dark.nBad = s.nBad := rfl
@[simp] theorem PortState.dark_nForwarded (s : PortState) : s.dark.nForwarded = s.nForwarded := rfl
@[simp] theorem PortState.dark_nDropped (s : PortState) : s.dark.nDropped = s.nDropped := rfl
@[simp] theorem PortState.dark_nLap (s : PortState) : s.dark.nLap = s.nLap := rfl
@[simp] theorem PortState.dark_nQuarantine (s : PortState) : s.dark.nQuarantine = s.nQuarantine := rfl
@[simp] theorem PortState.dark_sent (s : PortState) : s.dark.sent = s.sent := rfl

@[simp] theorem PerPort.get_put_self {α : Type} (v : PerPort α) (p : Port) (x : α) : (v.put p x).get p = x := by
  cases p <;> rfl

@[simp] theorem PerPort.get_put_other {α : Type} (v : PerPort α) (p : Port) (x : α) :
    (v.put p x).get (otherPort p) = v.get (otherPort p) := by
  cases p <;> rfl

@[simp] theorem PerPort.get_upd_self {α : Type} (v : PerPort α) (p : Port) (f : α → α) :
    (v.upd p f).get p = f (v.get p) := by
  cases p <;> rfl

@[simp] theorem PerPort.get_upd_other {α : Type} (v : PerPort α) (p : Port) (f : α → α) :
    (v.upd p f).get (otherPort p) = v.get (otherPort p) := by
  cases p <;> rfl

/-- Two changes of one port are one change. -/
theorem Chip.onPort_onPort (p : Port) (f g : PortState → PortState) (c : Chip) :
    (c.onPort p f).onPort p g = c.onPort p (fun s => g (f s)) := by
  cases p <;> rfl

@[simp] theorem Chip.portOf_onPort (p : Port) (f : PortState → PortState) (c : Chip) :
    (c.onPort p f).portOf p = f (c.portOf p) := by
  cases p <;> rfl

@[simp] theorem Chip.portOf_post (p : Port) (k : EventKind) (n : Nat) (v : Word) (c : Chip) :
    (c.post k n v).portOf p = c.portOf p := rfl

/-! ## Tables -/

@[simp] theorem upd_getElem_self {α : Type} {n : Nat} (v : Vector α n) (i : Fin n) (f : α → α) :
    (upd v i f)[i] = f v[i] := by
  simp [upd]

theorem upd_getElem_ne {α : Type} {n : Nat} (v : Vector α n) (i j : Fin n) (f : α → α) (h : i ≠ j) :
    (upd v i f)[j] = v[j] := by
  have h' : i.val ≠ j.val := fun e => h (Fin.ext e)
  simp [upd, h']

/-- A property that every round keeps holds after `forEach`. -/
theorem forEach_keeps {σ : Type} (n : Nat) (f : Fin n → σ → σ) (P : σ → Prop) (h : ∀ i s, P s → P (f i s)) (s : σ)
    (hs : P s) : P (forEach n f s) := by
  unfold forEach
  generalize List.finRange n = l
  induction l generalizing s with
  | nil => exact hs
  | cons a l ih => exact ih _ (h a s hs)

/-- What no round changes is unchanged after `forEach`. -/
theorem forEach_fixed {σ τ : Type} (n : Nat) (f : Fin n → σ → σ) (g : σ → τ) (h : ∀ i s, g (f i s) = g s) (s : σ) :
    g (forEach n f s) = g s :=
  forEach_keeps n f (fun x => g x = g s) (fun i x hx => (h i x).trans hx) s rfl

/-! ## drawn -/
@[simp] theorem Chip.drawn_ord (c : Chip) : c.drawn.ord = { c.ord with freeCount := c.ord.freeCount + 1 } := rfl
@[simp] theorem Chip.drawn_sys (c : Chip) : c.drawn.sys = c.sys := rfl
@[simp] theorem Chip.drawn_cfg (c : Chip) : c.drawn.cfg = c.cfg := rfl
@[simp] theorem Chip.drawn_rng (c : Chip) : c.drawn.rng = c.rng := rfl
@[simp] theorem Chip.drawn_cad (c : Chip) : c.drawn.cad = c.cad := rfl
@[simp] theorem Chip.drawn_sel (c : Chip) : c.drawn.sel = c.sel := rfl
@[simp] theorem Chip.drawn_pln (c : Chip) : c.drawn.pln = c.pln := rfl
@[simp] theorem Chip.drawn_msg (c : Chip) : c.drawn.msg = c.msg := rfl
@[simp] theorem Chip.drawn_ret (c : Chip) : c.drawn.ret = c.ret := rfl
@[simp] theorem Chip.drawn_pre (c : Chip) : c.drawn.pre = c.pre := rfl
@[simp] theorem Chip.drawn_tap (c : Chip) : c.drawn.tap = c.tap := rfl

/-! ## expireAssembly -/
@[simp] theorem Chip.expireAssembly_pln (c : Chip) : c.expireAssembly.pln = c.pln.expire := rfl
@[simp] theorem Chip.expireAssembly_sys (c : Chip) : c.expireAssembly.sys = c.sys := rfl
@[simp] theorem Chip.expireAssembly_cfg (c : Chip) : c.expireAssembly.cfg = c.cfg := rfl
@[simp] theorem Chip.expireAssembly_rng (c : Chip) : c.expireAssembly.rng = c.rng := rfl
@[simp] theorem Chip.expireAssembly_cad (c : Chip) : c.expireAssembly.cad = c.cad := rfl
@[simp] theorem Chip.expireAssembly_sel (c : Chip) : c.expireAssembly.sel = c.sel := rfl
@[simp] theorem Chip.expireAssembly_msg (c : Chip) : c.expireAssembly.msg = c.msg := rfl
@[simp] theorem Chip.expireAssembly_ret (c : Chip) : c.expireAssembly.ret = c.ret := rfl
@[simp] theorem Chip.expireAssembly_pre (c : Chip) : c.expireAssembly.pre = c.pre := rfl
@[simp] theorem Chip.expireAssembly_ord (c : Chip) : c.expireAssembly.ord = c.ord := rfl
@[simp] theorem Chip.expireAssembly_tap (c : Chip) : c.expireAssembly.tap = c.tap := rfl

/-! ## Cadence.begin, PlanStore.markExpiry -/
@[simp] theorem Cadence.begin_state (n : Period) (x : Cadence) : (x.begin n).state = x.state := rfl
@[simp] theorem Cadence.begin_role (n : Period) (x : Cadence) : (x.begin n).role = x.role := rfl
@[simp] theorem Cadence.begin_ref (n : Period) (x : Cadence) : (x.begin n).ref = x.ref := rfl
@[simp] theorem Cadence.begin_decisionOpen (n : Period) (x : Cadence) : (x.begin n).decisionOpen = x.decisionOpen := rfl
@[simp] theorem Cadence.begin_pathAge (n : Period) (x : Cadence) : (x.begin n).pathAge = x.pathAge := rfl
@[simp] theorem Cadence.begin_lockCount (n : Period) (x : Cadence) : (x.begin n).lockCount = x.lockCount := rfl
@[simp] theorem Cadence.begin_silence (n : Period) (x : Cadence) : (x.begin n).silence = x.silence := rfl
@[simp] theorem Cadence.begin_holdover (n : Period) (x : Cadence) : (x.begin n).holdover = x.holdover := rfl
@[simp] theorem Cadence.begin_stepArmed (n : Period) (x : Cadence) : (x.begin n).stepArmed = x.stepArmed := rfl
@[simp] theorem Cadence.begin_rank (n : Period) (x : Cadence) : (x.begin n).rank = x.rank := rfl
@[simp] theorem Cadence.begin_settled (n : Period) (x : Cadence) : (x.begin n).settled = x.settled := rfl
@[simp] theorem Cadence.begin_openToSelf (n : Period) (x : Cadence) : (x.begin n).openToSelf = x.openToSelf := rfl
@[simp] theorem Cadence.begin_wckReturn (n : Period) (x : Cadence) : (x.begin n).wckReturn = x.wckReturn := rfl
@[simp] theorem Cadence.begin_period (n : Period) (x : Cadence) : (x.begin n).period = n := rfl
@[simp] theorem Cadence.begin_tickMove (n : Period) (x : Cadence) : (x.begin n).tickMove = 0 := rfl
@[simp] theorem PlanStore.markExpiry_current (n : Period) (x : PlanStore) : (x.markExpiry n).current = x.current := rfl
@[simp] theorem PlanStore.markExpiry_adopted (n : Period) (x : PlanStore) : (x.markExpiry n).adopted = x.adopted := rfl
@[simp] theorem PlanStore.markExpiry_prior (n : Period) (x : PlanStore) : (x.markExpiry n).prior = x.prior := rfl
@[simp] theorem PlanStore.markExpiry_staged (n : Period) (x : PlanStore) : (x.markExpiry n).staged = x.staged := rfl
@[simp] theorem PlanStore.markExpiry_repair (n : Period) (x : PlanStore) : (x.markExpiry n).repair = x.repair := rfl
@[simp] theorem PlanStore.markExpiry_draft (n : Period) (x : PlanStore) : (x.markExpiry n).draft = x.draft := rfl
@[simp] theorem PlanStore.markExpiry_nextStaged (n : Period) (x : PlanStore) : (x.markExpiry n).nextStaged = x.nextStaged := rfl
@[simp] theorem PlanStore.markExpiry_nextCurrent (n : Period) (x : PlanStore) : (x.markExpiry n).nextCurrent = x.nextCurrent := rfl
@[simp] theorem PlanStore.markExpiry_asmStaged (n : Period) (x : PlanStore) : (x.markExpiry n).asmStaged = x.asmStaged := rfl
@[simp] theorem PlanStore.markExpiry_asmCurrent (n : Period) (x : PlanStore) : (x.markExpiry n).asmCurrent = x.asmCurrent := rfl
@[simp] theorem PlanStore.markExpiry_mismatch (n : Period) (x : PlanStore) : (x.markExpiry n).mismatch = x.mismatch := rfl
@[simp] theorem PlanStore.markExpiry_expiryDue (n : Period) (x : PlanStore) :
    (x.markExpiry n).expiryDue = x.asmStaged.any (fun a => a.e + 96 = n) := rfl

end Sys2Proof.Machine
end

