-- ==== Sys2Proof/Laws/Ops.lean ====
section
/-! SUPPORT. What each shared operation can do: the blocks it leaves as they were, and the cases of a code write. -/

namespace Sys2Proof.Machine

/-! ## Order cells -/

@[simp] theorem Chip.finish_sys (i : CellId) (st : CellState) (r : Reason) (v : Word) (c : Chip) : (c.finish i st r v).sys = c.sys := by
  unfold Chip.finish; dsimp only; split <;> rfl
@[simp] theorem Chip.finish_cfg (i : CellId) (st : CellState) (r : Reason) (v : Word) (c : Chip) : (c.finish i st r v).cfg = c.cfg := by
  unfold Chip.finish; dsimp only; split <;> rfl
@[simp] theorem Chip.finish_rng (i : CellId) (st : CellState) (r : Reason) (v : Word) (c : Chip) : (c.finish i st r v).rng = c.rng := by
  unfold Chip.finish; dsimp only; split <;> rfl
@[simp] theorem Chip.finish_cad (i : CellId) (st : CellState) (r : Reason) (v : Word) (c : Chip) : (c.finish i st r v).cad = c.cad := by
  unfold Chip.finish; dsimp only; split <;> rfl
@[simp] theorem Chip.finish_sel (i : CellId) (st : CellState) (r : Reason) (v : Word) (c : Chip) : (c.finish i st r v).sel = c.sel := by
  unfold Chip.finish; dsimp only; split <;> rfl
@[simp] theorem Chip.finish_pln (i : CellId) (st : CellState) (r : Reason) (v : Word) (c : Chip) : (c.finish i st r v).pln = c.pln := by
  unfold Chip.finish; dsimp only; split <;> rfl
@[simp] theorem Chip.finish_msg (i : CellId) (st : CellState) (r : Reason) (v : Word) (c : Chip) : (c.finish i st r v).msg = c.msg := by
  unfold Chip.finish; dsimp only; split <;> rfl
@[simp] theorem Chip.finish_ret (i : CellId) (st : CellState) (r : Reason) (v : Word) (c : Chip) : (c.finish i st r v).ret = c.ret := by
  unfold Chip.finish; dsimp only; split <;> rfl
@[simp] theorem Chip.finish_pre (i : CellId) (st : CellState) (r : Reason) (v : Word) (c : Chip) : (c.finish i st r v).pre = c.pre := by
  unfold Chip.finish; dsimp only; split <;> rfl
@[simp] theorem Chip.finish_tap (i : CellId) (st : CellState) (r : Reason) (v : Word) (c : Chip) : (c.finish i st r v).tap = c.tap := by
  unfold Chip.finish; dsimp only; split <;> rfl
@[simp] theorem Chip.done_sys (i : CellId) (v : Word) (c : Chip) : (c.done i v).sys = c.sys := by
  simp [Chip.done]
@[simp] theorem Chip.done_cfg (i : CellId) (v : Word) (c : Chip) : (c.done i v).cfg = c.cfg := by
  simp [Chip.done]
@[simp] theorem Chip.done_rng (i : CellId) (v : Word) (c : Chip) : (c.done i v).rng = c.rng := by
  simp [Chip.done]
@[simp] theorem Chip.done_cad (i : CellId) (v : Word) (c : Chip) : (c.done i v).cad = c.cad := by
  simp [Chip.done]
@[simp] theorem Chip.done_sel (i : CellId) (v : Word) (c : Chip) : (c.done i v).sel = c.sel := by
  simp [Chip.done]
@[simp] theorem Chip.done_pln (i : CellId) (v : Word) (c : Chip) : (c.done i v).pln = c.pln := by
  simp [Chip.done]
@[simp] theorem Chip.done_msg (i : CellId) (v : Word) (c : Chip) : (c.done i v).msg = c.msg := by
  simp [Chip.done]
@[simp] theorem Chip.done_ret (i : CellId) (v : Word) (c : Chip) : (c.done i v).ret = c.ret := by
  simp [Chip.done]
@[simp] theorem Chip.done_pre (i : CellId) (v : Word) (c : Chip) : (c.done i v).pre = c.pre := by
  simp [Chip.done]
@[simp] theorem Chip.done_tap (i : CellId) (v : Word) (c : Chip) : (c.done i v).tap = c.tap := by
  simp [Chip.done]
@[simp] theorem Chip.fail_sys (i : CellId) (r : Reason) (v : Word) (c : Chip) : (c.fail i r v).sys = c.sys := by
  simp [Chip.fail]
@[simp] theorem Chip.fail_cfg (i : CellId) (r : Reason) (v : Word) (c : Chip) : (c.fail i r v).cfg = c.cfg := by
  simp [Chip.fail]
@[simp] theorem Chip.fail_rng (i : CellId) (r : Reason) (v : Word) (c : Chip) : (c.fail i r v).rng = c.rng := by
  simp [Chip.fail]
@[simp] theorem Chip.fail_cad (i : CellId) (r : Reason) (v : Word) (c : Chip) : (c.fail i r v).cad = c.cad := by
  simp [Chip.fail]
@[simp] theorem Chip.fail_sel (i : CellId) (r : Reason) (v : Word) (c : Chip) : (c.fail i r v).sel = c.sel := by
  simp [Chip.fail]
@[simp] theorem Chip.fail_pln (i : CellId) (r : Reason) (v : Word) (c : Chip) : (c.fail i r v).pln = c.pln := by
  simp [Chip.fail]
@[simp] theorem Chip.fail_msg (i : CellId) (r : Reason) (v : Word) (c : Chip) : (c.fail i r v).msg = c.msg := by
  simp [Chip.fail]
@[simp] theorem Chip.fail_ret (i : CellId) (r : Reason) (v : Word) (c : Chip) : (c.fail i r v).ret = c.ret := by
  simp [Chip.fail]
@[simp] theorem Chip.fail_pre (i : CellId) (r : Reason) (v : Word) (c : Chip) : (c.fail i r v).pre = c.pre := by
  simp [Chip.fail]
@[simp] theorem Chip.fail_tap (i : CellId) (r : Reason) (v : Word) (c : Chip) : (c.fail i r v).tap = c.tap := by
  simp [Chip.fail]
@[simp] theorem Chip.failFree_sys (i : CellId) (r : Reason) (c : Chip) : (c.failFree i r).sys = c.sys := by
  simp [Chip.failFree]
@[simp] theorem Chip.failFree_cfg (i : CellId) (r : Reason) (c : Chip) : (c.failFree i r).cfg = c.cfg := by
  simp [Chip.failFree]
@[simp] theorem Chip.failFree_rng (i : CellId) (r : Reason) (c : Chip) : (c.failFree i r).rng = c.rng := by
  simp [Chip.failFree]
@[simp] theorem Chip.failFree_cad (i : CellId) (r : Reason) (c : Chip) : (c.failFree i r).cad = c.cad := by
  simp [Chip.failFree]
@[simp] theorem Chip.failFree_sel (i : CellId) (r : Reason) (c : Chip) : (c.failFree i r).sel = c.sel := by
  simp [Chip.failFree]
@[simp] theorem Chip.failFree_pln (i : CellId) (r : Reason) (c : Chip) : (c.failFree i r).pln = c.pln := by
  simp [Chip.failFree]
@[simp] theorem Chip.failFree_msg (i : CellId) (r : Reason) (c : Chip) : (c.failFree i r).msg = c.msg := by
  simp [Chip.failFree]
@[simp] theorem Chip.failFree_ret (i : CellId) (r : Reason) (c : Chip) : (c.failFree i r).ret = c.ret := by
  simp [Chip.failFree]
@[simp] theorem Chip.failFree_pre (i : CellId) (r : Reason) (c : Chip) : (c.failFree i r).pre = c.pre := by
  simp [Chip.failFree]
@[simp] theorem Chip.failFree_tap (i : CellId) (r : Reason) (c : Chip) : (c.failFree i r).tap = c.tap := by
  simp [Chip.failFree]
@[simp] theorem Chip.doneWaiting_sys (w : WaitFor) (v : Word) (c : Chip) : (c.doneWaiting w v).sys = c.sys := by
  refine forEach_fixed 4 _ (fun x : Chip => x.sys) (fun i x => ?_) c
  split <;> simp
@[simp] theorem Chip.doneWaiting_cfg (w : WaitFor) (v : Word) (c : Chip) : (c.doneWaiting w v).cfg = c.cfg := by
  refine forEach_fixed 4 _ (fun x : Chip => x.cfg) (fun i x => ?_) c
  split <;> simp
@[simp] theorem Chip.doneWaiting_rng (w : WaitFor) (v : Word) (c : Chip) : (c.doneWaiting w v).rng = c.rng := by
  refine forEach_fixed 4 _ (fun x : Chip => x.rng) (fun i x => ?_) c
  split <;> simp
@[simp] theorem Chip.doneWaiting_cad (w : WaitFor) (v : Word) (c : Chip) : (c.doneWaiting w v).cad = c.cad := by
  refine forEach_fixed 4 _ (fun x : Chip => x.cad) (fun i x => ?_) c
  split <;> simp
@[simp] theorem Chip.doneWaiting_sel (w : WaitFor) (v : Word) (c : Chip) : (c.doneWaiting w v).sel = c.sel := by
  refine forEach_fixed 4 _ (fun x : Chip => x.sel) (fun i x => ?_) c
  split <;> simp
@[simp] theorem Chip.doneWaiting_pln (w : WaitFor) (v : Word) (c : Chip) : (c.doneWaiting w v).pln = c.pln := by
  refine forEach_fixed 4 _ (fun x : Chip => x.pln) (fun i x => ?_) c
  split <;> simp
@[simp] theorem Chip.doneWaiting_msg (w : WaitFor) (v : Word) (c : Chip) : (c.doneWaiting w v).msg = c.msg := by
  refine forEach_fixed 4 _ (fun x : Chip => x.msg) (fun i x => ?_) c
  split <;> simp
@[simp] theorem Chip.doneWaiting_ret (w : WaitFor) (v : Word) (c : Chip) : (c.doneWaiting w v).ret = c.ret := by
  refine forEach_fixed 4 _ (fun x : Chip => x.ret) (fun i x => ?_) c
  split <;> simp
@[simp] theorem Chip.doneWaiting_pre (w : WaitFor) (v : Word) (c : Chip) : (c.doneWaiting w v).pre = c.pre := by
  refine forEach_fixed 4 _ (fun x : Chip => x.pre) (fun i x => ?_) c
  split <;> simp
@[simp] theorem Chip.doneWaiting_tap (w : WaitFor) (v : Word) (c : Chip) : (c.doneWaiting w v).tap = c.tap := by
  refine forEach_fixed 4 _ (fun x : Chip => x.tap) (fun i x => ?_) c
  split <;> simp
@[simp] theorem Chip.failWaiting_sys (w : WaitFor) (r : Reason) (c : Chip) : (c.failWaiting w r).sys = c.sys := by
  refine forEach_fixed 4 _ (fun x : Chip => x.sys) (fun i x => ?_) c
  split <;> simp
@[simp] theorem Chip.failWaiting_cfg (w : WaitFor) (r : Reason) (c : Chip) : (c.failWaiting w r).cfg = c.cfg := by
  refine forEach_fixed 4 _ (fun x : Chip => x.cfg) (fun i x => ?_) c
  split <;> simp
@[simp] theorem Chip.failWaiting_rng (w : WaitFor) (r : Reason) (c : Chip) : (c.failWaiting w r).rng = c.rng := by
  refine forEach_fixed 4 _ (fun x : Chip => x.rng) (fun i x => ?_) c
  split <;> simp
@[simp] theorem Chip.failWaiting_cad (w : WaitFor) (r : Reason) (c : Chip) : (c.failWaiting w r).cad = c.cad := by
  refine forEach_fixed 4 _ (fun x : Chip => x.cad) (fun i x => ?_) c
  split <;> simp
@[simp] theorem Chip.failWaiting_sel (w : WaitFor) (r : Reason) (c : Chip) : (c.failWaiting w r).sel = c.sel := by
  refine forEach_fixed 4 _ (fun x : Chip => x.sel) (fun i x => ?_) c
  split <;> simp
@[simp] theorem Chip.failWaiting_pln (w : WaitFor) (r : Reason) (c : Chip) : (c.failWaiting w r).pln = c.pln := by
  refine forEach_fixed 4 _ (fun x : Chip => x.pln) (fun i x => ?_) c
  split <;> simp
@[simp] theorem Chip.failWaiting_msg (w : WaitFor) (r : Reason) (c : Chip) : (c.failWaiting w r).msg = c.msg := by
  refine forEach_fixed 4 _ (fun x : Chip => x.msg) (fun i x => ?_) c
  split <;> simp
@[simp] theorem Chip.failWaiting_ret (w : WaitFor) (r : Reason) (c : Chip) : (c.failWaiting w r).ret = c.ret := by
  refine forEach_fixed 4 _ (fun x : Chip => x.ret) (fun i x => ?_) c
  split <;> simp
@[simp] theorem Chip.failWaiting_pre (w : WaitFor) (r : Reason) (c : Chip) : (c.failWaiting w r).pre = c.pre := by
  refine forEach_fixed 4 _ (fun x : Chip => x.pre) (fun i x => ?_) c
  split <;> simp
@[simp] theorem Chip.failWaiting_tap (w : WaitFor) (r : Reason) (c : Chip) : (c.failWaiting w r).tap = c.tap := by
  refine forEach_fixed 4 _ (fun x : Chip => x.tap) (fun i x => ?_) c
  split <;> simp

/-! ## Ports -/

@[simp] theorem Chip.handOver_sys (p : Port) (e : TxEntry) (c : Chip) : (c.handOver p e).sys = c.sys := by
  unfold Chip.handOver; split <;> rfl
@[simp] theorem Chip.handOver_cfg (p : Port) (e : TxEntry) (c : Chip) : (c.handOver p e).cfg = c.cfg := by
  unfold Chip.handOver; split <;> rfl
@[simp] theorem Chip.handOver_cad (p : Port) (e : TxEntry) (c : Chip) : (c.handOver p e).cad = c.cad := by
  unfold Chip.handOver; split <;> rfl
@[simp] theorem Chip.handOver_sel (p : Port) (e : TxEntry) (c : Chip) : (c.handOver p e).sel = c.sel := by
  unfold Chip.handOver; split <;> rfl
@[simp] theorem Chip.handOver_pln (p : Port) (e : TxEntry) (c : Chip) : (c.handOver p e).pln = c.pln := by
  unfold Chip.handOver; split <;> rfl
@[simp] theorem Chip.handOver_msg (p : Port) (e : TxEntry) (c : Chip) : (c.handOver p e).msg = c.msg := by
  unfold Chip.handOver; split <;> rfl
@[simp] theorem Chip.handOver_ret (p : Port) (e : TxEntry) (c : Chip) : (c.handOver p e).ret = c.ret := by
  unfold Chip.handOver; split <;> rfl
@[simp] theorem Chip.handOver_pre (p : Port) (e : TxEntry) (c : Chip) : (c.handOver p e).pre = c.pre := by
  unfold Chip.handOver; split <;> rfl
@[simp] theorem Chip.handOver_ord (p : Port) (e : TxEntry) (c : Chip) : (c.handOver p e).ord = c.ord := by
  unfold Chip.handOver; split <;> rfl
@[simp] theorem Chip.handOver_tap (p : Port) (e : TxEntry) (c : Chip) : (c.handOver p e).tap = c.tap := by
  unfold Chip.handOver; split <;> rfl
@[simp] theorem Chip.lightArrival_sys (p : Port) (c : Chip) : (c.lightArrival p).sys = c.sys := by
  unfold Chip.lightArrival; dsimp only; split <;> rfl
@[simp] theorem Chip.lightArrival_cfg (p : Port) (c : Chip) : (c.lightArrival p).cfg = c.cfg := by
  unfold Chip.lightArrival; dsimp only; split <;> rfl
@[simp] theorem Chip.lightArrival_cad (p : Port) (c : Chip) : (c.lightArrival p).cad = c.cad := by
  unfold Chip.lightArrival; dsimp only; split <;> rfl
@[simp] theorem Chip.lightArrival_sel (p : Port) (c : Chip) : (c.lightArrival p).sel = c.sel := by
  unfold Chip.lightArrival; dsimp only; split <;> rfl
@[simp] theorem Chip.lightArrival_pln (p : Port) (c : Chip) : (c.lightArrival p).pln = c.pln := by
  unfold Chip.lightArrival; dsimp only; split <;> rfl
@[simp] theorem Chip.lightArrival_msg (p : Port) (c : Chip) : (c.lightArrival p).msg = c.msg := by
  unfold Chip.lightArrival; dsimp only; split <;> rfl
@[simp] theorem Chip.lightArrival_ret (p : Port) (c : Chip) : (c.lightArrival p).ret = c.ret := by
  unfold Chip.lightArrival; dsimp only; split <;> rfl
@[simp] theorem Chip.lightArrival_pre (p : Port) (c : Chip) : (c.lightArrival p).pre = c.pre := by
  unfold Chip.lightArrival; dsimp only; split <;> rfl
@[simp] theorem Chip.lightArrival_tap (p : Port) (c : Chip) : (c.lightArrival p).tap = c.tap := by
  unfold Chip.lightArrival; dsimp only; split <;> rfl
@[simp] theorem Chip.lightLoss_sys (p : Port) (c : Chip) : (c.lightLoss p).sys = c.sys := by
  unfold Chip.lightLoss; dsimp only; split
  · split <;> rfl
  · rfl
@[simp] theorem Chip.lightLoss_cfg (p : Port) (c : Chip) : (c.lightLoss p).cfg = c.cfg := by
  unfold Chip.lightLoss; dsimp only; split
  · split <;> rfl
  · rfl
@[simp] theorem Chip.lightLoss_cad (p : Port) (c : Chip) : (c.lightLoss p).cad = c.cad := by
  unfold Chip.lightLoss; dsimp only; split
  · split <;> rfl
  · rfl
@[simp] theorem Chip.lightLoss_sel (p : Port) (c : Chip) : (c.lightLoss p).sel = c.sel := by
  unfold Chip.lightLoss; dsimp only; split
  · split <;> rfl
  · rfl
@[simp] theorem Chip.lightLoss_pln (p : Port) (c : Chip) : (c.lightLoss p).pln = c.pln := by
  unfold Chip.lightLoss; dsimp only; split
  · split <;> rfl
  · rfl
@[simp] theorem Chip.lightLoss_msg (p : Port) (c : Chip) : (c.lightLoss p).msg = c.msg := by
  unfold Chip.lightLoss; dsimp only; split
  · split <;> rfl
  · rfl
@[simp] theorem Chip.lightLoss_ret (p : Port) (c : Chip) : (c.lightLoss p).ret = c.ret := by
  unfold Chip.lightLoss; dsimp only; split
  · split <;> rfl
  · rfl
@[simp] theorem Chip.lightLoss_pre (p : Port) (c : Chip) : (c.lightLoss p).pre = c.pre := by
  unfold Chip.lightLoss; dsimp only; split
  · split <;> rfl
  · rfl
@[simp] theorem Chip.lightLoss_tap (p : Port) (c : Chip) : (c.lightLoss p).tap = c.tap := by
  unfold Chip.lightLoss; dsimp only; split
  · split <;> rfl
  · rfl
@[simp] theorem Chip.acquireFailed_sys (p : Port) (c : Chip) : (c.acquireFailed p).sys = c.sys := by
  unfold Chip.acquireFailed; dsimp only; split <;> rfl
@[simp] theorem Chip.acquireFailed_cfg (p : Port) (c : Chip) : (c.acquireFailed p).cfg = c.cfg := by
  unfold Chip.acquireFailed; dsimp only; split <;> rfl
@[simp] theorem Chip.acquireFailed_cad (p : Port) (c : Chip) : (c.acquireFailed p).cad = c.cad := by
  unfold Chip.acquireFailed; dsimp only; split <;> rfl
@[simp] theorem Chip.acquireFailed_sel (p : Port) (c : Chip) : (c.acquireFailed p).sel = c.sel := by
  unfold Chip.acquireFailed; dsimp only; split <;> rfl
@[simp] theorem Chip.acquireFailed_pln (p : Port) (c : Chip) : (c.acquireFailed p).pln = c.pln := by
  unfold Chip.acquireFailed; dsimp only; split <;> rfl
@[simp] theorem Chip.acquireFailed_msg (p : Port) (c : Chip) : (c.acquireFailed p).msg = c.msg := by
  unfold Chip.acquireFailed; dsimp only; split <;> rfl
@[simp] theorem Chip.acquireFailed_ret (p : Port) (c : Chip) : (c.acquireFailed p).ret = c.ret := by
  unfold Chip.acquireFailed; dsimp only; split <;> rfl
@[simp] theorem Chip.acquireFailed_pre (p : Port) (c : Chip) : (c.acquireFailed p).pre = c.pre := by
  unfold Chip.acquireFailed; dsimp only; split <;> rfl
@[simp] theorem Chip.acquireFailed_tap (p : Port) (c : Chip) : (c.acquireFailed p).tap = c.tap := by
  unfold Chip.acquireFailed; dsimp only; split <;> rfl
@[simp] theorem Chip.windowEnd_sys (p : Port) (c : Chip) : (c.windowEnd p).sys = c.sys := by
  unfold Chip.windowEnd; dsimp only; split
  · split <;> rfl
  · rfl
@[simp] theorem Chip.windowEnd_cfg (p : Port) (c : Chip) : (c.windowEnd p).cfg = c.cfg := by
  unfold Chip.windowEnd; dsimp only; split
  · split <;> rfl
  · rfl
@[simp] theorem Chip.windowEnd_cad (p : Port) (c : Chip) : (c.windowEnd p).cad = c.cad := by
  unfold Chip.windowEnd; dsimp only; split
  · split <;> rfl
  · rfl
@[simp] theorem Chip.windowEnd_sel (p : Port) (c : Chip) : (c.windowEnd p).sel = c.sel := by
  unfold Chip.windowEnd; dsimp only; split
  · split <;> rfl
  · rfl
@[simp] theorem Chip.windowEnd_pln (p : Port) (c : Chip) : (c.windowEnd p).pln = c.pln := by
  unfold Chip.windowEnd; dsimp only; split
  · split <;> rfl
  · rfl
@[simp] theorem Chip.windowEnd_msg (p : Port) (c : Chip) : (c.windowEnd p).msg = c.msg := by
  unfold Chip.windowEnd; dsimp only; split
  · split <;> rfl
  · rfl
@[simp] theorem Chip.windowEnd_ret (p : Port) (c : Chip) : (c.windowEnd p).ret = c.ret := by
  unfold Chip.windowEnd; dsimp only; split
  · split <;> rfl
  · rfl
@[simp] theorem Chip.windowEnd_pre (p : Port) (c : Chip) : (c.windowEnd p).pre = c.pre := by
  unfold Chip.windowEnd; dsimp only; split
  · split <;> rfl
  · rfl
@[simp] theorem Chip.windowEnd_tap (p : Port) (c : Chip) : (c.windowEnd p).tap = c.tap := by
  unfold Chip.windowEnd; dsimp only; split
  · split <;> rfl
  · rfl
@[simp] theorem Chip.quarantineEnd_sys (p : Port) (c : Chip) : (c.quarantineEnd p).sys = c.sys := by
  unfold Chip.quarantineEnd Chip.postPortState; dsimp only; split
  · split <;> rfl
  · rfl
@[simp] theorem Chip.quarantineEnd_cfg (p : Port) (c : Chip) : (c.quarantineEnd p).cfg = c.cfg := by
  unfold Chip.quarantineEnd Chip.postPortState; dsimp only; split
  · split <;> rfl
  · rfl
@[simp] theorem Chip.quarantineEnd_cad (p : Port) (c : Chip) : (c.quarantineEnd p).cad = c.cad := by
  unfold Chip.quarantineEnd Chip.postPortState; dsimp only; split
  · split <;> rfl
  · rfl
@[simp] theorem Chip.quarantineEnd_sel (p : Port) (c : Chip) : (c.quarantineEnd p).sel = c.sel := by
  unfold Chip.quarantineEnd Chip.postPortState; dsimp only; split
  · split <;> rfl
  · rfl
@[simp] theorem Chip.quarantineEnd_pln (p : Port) (c : Chip) : (c.quarantineEnd p).pln = c.pln := by
  unfold Chip.quarantineEnd Chip.postPortState; dsimp only; split
  · split <;> rfl
  · rfl
@[simp] theorem Chip.quarantineEnd_msg (p : Port) (c : Chip) : (c.quarantineEnd p).msg = c.msg := by
  unfold Chip.quarantineEnd Chip.postPortState; dsimp only; split
  · split <;> rfl
  · rfl
@[simp] theorem Chip.quarantineEnd_ret (p : Port) (c : Chip) : (c.quarantineEnd p).ret = c.ret := by
  unfold Chip.quarantineEnd Chip.postPortState; dsimp only; split
  · split <;> rfl
  · rfl
@[simp] theorem Chip.quarantineEnd_pre (p : Port) (c : Chip) : (c.quarantineEnd p).pre = c.pre := by
  unfold Chip.quarantineEnd Chip.postPortState; dsimp only; split
  · split <;> rfl
  · rfl
@[simp] theorem Chip.quarantineEnd_tap (p : Port) (c : Chip) : (c.quarantineEnd p).tap = c.tap := by
  unfold Chip.quarantineEnd Chip.postPortState; dsimp only; split
  · split <;> rfl
  · rfl
@[simp] theorem Chip.drillEnd_sys (p : Port) (c : Chip) : (c.drillEnd p).sys = c.sys := by
  unfold Chip.drillEnd; split <;> rfl
@[simp] theorem Chip.drillEnd_cfg (p : Port) (c : Chip) : (c.drillEnd p).cfg = c.cfg := by
  unfold Chip.drillEnd; split <;> rfl
@[simp] theorem Chip.drillEnd_cad (p : Port) (c : Chip) : (c.drillEnd p).cad = c.cad := by
  unfold Chip.drillEnd; split <;> rfl
@[simp] theorem Chip.drillEnd_sel (p : Port) (c : Chip) : (c.drillEnd p).sel = c.sel := by
  unfold Chip.drillEnd; split <;> rfl
@[simp] theorem Chip.drillEnd_pln (p : Port) (c : Chip) : (c.drillEnd p).pln = c.pln := by
  unfold Chip.drillEnd; split <;> rfl
@[simp] theorem Chip.drillEnd_msg (p : Port) (c : Chip) : (c.drillEnd p).msg = c.msg := by
  unfold Chip.drillEnd; split <;> rfl
@[simp] theorem Chip.drillEnd_ret (p : Port) (c : Chip) : (c.drillEnd p).ret = c.ret := by
  unfold Chip.drillEnd; split <;> rfl
@[simp] theorem Chip.drillEnd_pre (p : Port) (c : Chip) : (c.drillEnd p).pre = c.pre := by
  unfold Chip.drillEnd; split <;> rfl
@[simp] theorem Chip.drillEnd_ord (p : Port) (c : Chip) : (c.drillEnd p).ord = c.ord := by
  unfold Chip.drillEnd; split <;> rfl
@[simp] theorem Chip.drillEnd_tap (p : Port) (c : Chip) : (c.drillEnd p).tap = c.tap := by
  unfold Chip.drillEnd; split <;> rfl

/-! ## The Cadence Unit -/

@[simp] theorem Chip.setCadence_sys (st : CadenceState) (c : Chip) : (c.setCadence st).sys = c.sys := by
  unfold Chip.setCadence; dsimp only; split <;> rfl
@[simp] theorem Chip.setCadence_cfg (st : CadenceState) (c : Chip) : (c.setCadence st).cfg = c.cfg := by
  unfold Chip.setCadence; dsimp only; split <;> rfl
@[simp] theorem Chip.setCadence_rng (st : CadenceState) (c : Chip) : (c.setCadence st).rng = c.rng := by
  unfold Chip.setCadence; dsimp only; split <;> rfl
@[simp] theorem Chip.setCadence_sel (st : CadenceState) (c : Chip) : (c.setCadence st).sel = c.sel := by
  unfold Chip.setCadence; dsimp only; split <;> rfl
@[simp] theorem Chip.setCadence_pln (st : CadenceState) (c : Chip) : (c.setCadence st).pln = c.pln := by
  unfold Chip.setCadence; dsimp only; split <;> rfl
@[simp] theorem Chip.setCadence_msg (st : CadenceState) (c : Chip) : (c.setCadence st).msg = c.msg := by
  unfold Chip.setCadence; dsimp only; split <;> rfl
@[simp] theorem Chip.setCadence_ret (st : CadenceState) (c : Chip) : (c.setCadence st).ret = c.ret := by
  unfold Chip.setCadence; dsimp only; split <;> rfl
@[simp] theorem Chip.setCadence_pre (st : CadenceState) (c : Chip) : (c.setCadence st).pre = c.pre := by
  unfold Chip.setCadence; dsimp only; split <;> rfl
@[simp] theorem Chip.setCadence_tap (st : CadenceState) (c : Chip) : (c.setCadence st).tap = c.tap := by
  unfold Chip.setCadence; dsimp only; split <;> rfl
@[simp] theorem Chip.electSelf_sys (c : Chip) : (c.electSelf).sys = c.sys := by
  unfold Chip.electSelf; dsimp only; split
  · simp
  · split <;> rfl
@[simp] theorem Chip.electSelf_cfg (c : Chip) : (c.electSelf).cfg = c.cfg := by
  unfold Chip.electSelf; dsimp only; split
  · simp
  · split <;> rfl
@[simp] theorem Chip.electSelf_rng (c : Chip) : (c.electSelf).rng = c.rng := by
  unfold Chip.electSelf; dsimp only; split
  · simp
  · split <;> rfl
@[simp] theorem Chip.electSelf_sel (c : Chip) : (c.electSelf).sel = c.sel := by
  unfold Chip.electSelf; dsimp only; split
  · simp
  · split <;> rfl
@[simp] theorem Chip.electSelf_pln (c : Chip) : (c.electSelf).pln = c.pln := by
  unfold Chip.electSelf; dsimp only; split
  · simp
  · split <;> rfl
@[simp] theorem Chip.electSelf_msg (c : Chip) : (c.electSelf).msg = c.msg := by
  unfold Chip.electSelf; dsimp only; split
  · simp
  · split <;> rfl
@[simp] theorem Chip.electSelf_ret (c : Chip) : (c.electSelf).ret = c.ret := by
  unfold Chip.electSelf; dsimp only; split
  · simp
  · split <;> rfl
@[simp] theorem Chip.electSelf_pre (c : Chip) : (c.electSelf).pre = c.pre := by
  unfold Chip.electSelf; dsimp only; split
  · simp
  · split <;> rfl
@[simp] theorem Chip.electSelf_tap (c : Chip) : (c.electSelf).tap = c.tap := by
  unfold Chip.electSelf; dsimp only; split
  · simp
  · split <;> rfl
@[simp] theorem Chip.electOther_sys (r : NodeId) (c : Chip) : (c.electOther r).sys = c.sys := by
  unfold Chip.electOther; dsimp only; split <;> simp
@[simp] theorem Chip.electOther_cfg (r : NodeId) (c : Chip) : (c.electOther r).cfg = c.cfg := by
  unfold Chip.electOther; dsimp only; split <;> simp
@[simp] theorem Chip.electOther_rng (r : NodeId) (c : Chip) : (c.electOther r).rng = c.rng := by
  unfold Chip.electOther; dsimp only; split <;> simp
@[simp] theorem Chip.electOther_sel (r : NodeId) (c : Chip) : (c.electOther r).sel = c.sel := by
  unfold Chip.electOther; dsimp only; split <;> simp
@[simp] theorem Chip.electOther_pln (r : NodeId) (c : Chip) : (c.electOther r).pln = c.pln := by
  unfold Chip.electOther; dsimp only; split <;> simp
@[simp] theorem Chip.electOther_msg (r : NodeId) (c : Chip) : (c.electOther r).msg = c.msg := by
  unfold Chip.electOther; dsimp only; split <;> simp
@[simp] theorem Chip.electOther_ret (r : NodeId) (c : Chip) : (c.electOther r).ret = c.ret := by
  unfold Chip.electOther; dsimp only; split <;> simp
@[simp] theorem Chip.electOther_pre (r : NodeId) (c : Chip) : (c.electOther r).pre = c.pre := by
  unfold Chip.electOther; dsimp only; split <;> simp
@[simp] theorem Chip.electOther_tap (r : NodeId) (c : Chip) : (c.electOther r).tap = c.tap := by
  unfold Chip.electOther; dsimp only; split <;> simp
@[simp] theorem Chip.electNone_sys (c : Chip) : (c.electNone).sys = c.sys := by
  simp [Chip.electNone]
@[simp] theorem Chip.electNone_cfg (c : Chip) : (c.electNone).cfg = c.cfg := by
  simp [Chip.electNone]
@[simp] theorem Chip.electNone_rng (c : Chip) : (c.electNone).rng = c.rng := by
  simp [Chip.electNone]
@[simp] theorem Chip.electNone_sel (c : Chip) : (c.electNone).sel = c.sel := by
  simp [Chip.electNone]
@[simp] theorem Chip.electNone_pln (c : Chip) : (c.electNone).pln = c.pln := by
  simp [Chip.electNone]
@[simp] theorem Chip.electNone_msg (c : Chip) : (c.electNone).msg = c.msg := by
  simp [Chip.electNone]
@[simp] theorem Chip.electNone_ret (c : Chip) : (c.electNone).ret = c.ret := by
  simp [Chip.electNone]
@[simp] theorem Chip.electNone_pre (c : Chip) : (c.electNone).pre = c.pre := by
  simp [Chip.electNone]
@[simp] theorem Chip.electNone_tap (c : Chip) : (c.electNone).tap = c.tap := by
  simp [Chip.electNone]
@[simp] theorem Chip.elect_sys (c : Chip) : (c.elect).sys = c.sys := by
  unfold Chip.elect; dsimp only; split
  · rfl
  · split
    · simp
    · split <;> simp
@[simp] theorem Chip.elect_cfg (c : Chip) : (c.elect).cfg = c.cfg := by
  unfold Chip.elect; dsimp only; split
  · rfl
  · split
    · simp
    · split <;> simp
@[simp] theorem Chip.elect_rng (c : Chip) : (c.elect).rng = c.rng := by
  unfold Chip.elect; dsimp only; split
  · rfl
  · split
    · simp
    · split <;> simp
@[simp] theorem Chip.elect_sel (c : Chip) : (c.elect).sel = c.sel := by
  unfold Chip.elect; dsimp only; split
  · rfl
  · split
    · simp
    · split <;> simp
@[simp] theorem Chip.elect_pln (c : Chip) : (c.elect).pln = c.pln := by
  unfold Chip.elect; dsimp only; split
  · rfl
  · split
    · simp
    · split <;> simp
@[simp] theorem Chip.elect_msg (c : Chip) : (c.elect).msg = c.msg := by
  unfold Chip.elect; dsimp only; split
  · rfl
  · split
    · simp
    · split <;> simp
@[simp] theorem Chip.elect_ret (c : Chip) : (c.elect).ret = c.ret := by
  unfold Chip.elect; dsimp only; split
  · rfl
  · split
    · simp
    · split <;> simp
@[simp] theorem Chip.elect_pre (c : Chip) : (c.elect).pre = c.pre := by
  unfold Chip.elect; dsimp only; split
  · rfl
  · split
    · simp
    · split <;> simp
@[simp] theorem Chip.elect_tap (c : Chip) : (c.elect).tap = c.tap := by
  unfold Chip.elect; dsimp only; split
  · rfl
  · split
    · simp
    · split <;> simp
@[simp] theorem Chip.joinQuietEnd_sys (c : Chip) : (c.joinQuietEnd).sys = c.sys := by
  unfold Chip.joinQuietEnd; split <;> simp
@[simp] theorem Chip.joinQuietEnd_cfg (c : Chip) : (c.joinQuietEnd).cfg = c.cfg := by
  unfold Chip.joinQuietEnd; split <;> simp
@[simp] theorem Chip.joinQuietEnd_rng (c : Chip) : (c.joinQuietEnd).rng = c.rng := by
  unfold Chip.joinQuietEnd; split <;> simp
@[simp] theorem Chip.joinQuietEnd_sel (c : Chip) : (c.joinQuietEnd).sel = c.sel := by
  unfold Chip.joinQuietEnd; split <;> simp
@[simp] theorem Chip.joinQuietEnd_pln (c : Chip) : (c.joinQuietEnd).pln = c.pln := by
  unfold Chip.joinQuietEnd; split <;> simp
@[simp] theorem Chip.joinQuietEnd_msg (c : Chip) : (c.joinQuietEnd).msg = c.msg := by
  unfold Chip.joinQuietEnd; split <;> simp
@[simp] theorem Chip.joinQuietEnd_ret (c : Chip) : (c.joinQuietEnd).ret = c.ret := by
  unfold Chip.joinQuietEnd; split <;> simp
@[simp] theorem Chip.joinQuietEnd_pre (c : Chip) : (c.joinQuietEnd).pre = c.pre := by
  unfold Chip.joinQuietEnd; split <;> simp
@[simp] theorem Chip.joinQuietEnd_tap (c : Chip) : (c.joinQuietEnd).tap = c.tap := by
  unfold Chip.joinQuietEnd; split <;> simp
@[simp] theorem Chip.countCadence_sys (c : Chip) : (c.countCadence).sys = c.sys := by
  rfl
@[simp] theorem Chip.countCadence_cfg (c : Chip) : (c.countCadence).cfg = c.cfg := by
  rfl
@[simp] theorem Chip.countCadence_rng (c : Chip) : (c.countCadence).rng = c.rng := by
  rfl
@[simp] theorem Chip.countCadence_sel (c : Chip) : (c.countCadence).sel = c.sel := by
  rfl
@[simp] theorem Chip.countCadence_pln (c : Chip) : (c.countCadence).pln = c.pln := by
  rfl
@[simp] theorem Chip.countCadence_msg (c : Chip) : (c.countCadence).msg = c.msg := by
  rfl
@[simp] theorem Chip.countCadence_ret (c : Chip) : (c.countCadence).ret = c.ret := by
  rfl
@[simp] theorem Chip.countCadence_pre (c : Chip) : (c.countCadence).pre = c.pre := by
  rfl
@[simp] theorem Chip.countCadence_ord (c : Chip) : (c.countCadence).ord = c.ord := by
  rfl
@[simp] theorem Chip.countCadence_tap (c : Chip) : (c.countCadence).tap = c.tap := by
  rfl
@[simp] theorem Chip.referenceLost_sys (c : Chip) : (c.referenceLost).sys = c.sys := by
  unfold Chip.referenceLost; split
  · split <;> simp
  · rfl
@[simp] theorem Chip.referenceLost_cfg (c : Chip) : (c.referenceLost).cfg = c.cfg := by
  unfold Chip.referenceLost; split
  · split <;> simp
  · rfl
@[simp] theorem Chip.referenceLost_rng (c : Chip) : (c.referenceLost).rng = c.rng := by
  unfold Chip.referenceLost; split
  · split <;> simp
  · rfl
@[simp] theorem Chip.referenceLost_sel (c : Chip) : (c.referenceLost).sel = c.sel := by
  unfold Chip.referenceLost; split
  · split <;> simp
  · rfl
@[simp] theorem Chip.referenceLost_pln (c : Chip) : (c.referenceLost).pln = c.pln := by
  unfold Chip.referenceLost; split
  · split <;> simp
  · rfl
@[simp] theorem Chip.referenceLost_msg (c : Chip) : (c.referenceLost).msg = c.msg := by
  unfold Chip.referenceLost; split
  · split <;> simp
  · rfl
@[simp] theorem Chip.referenceLost_ret (c : Chip) : (c.referenceLost).ret = c.ret := by
  unfold Chip.referenceLost; split
  · split <;> simp
  · rfl
@[simp] theorem Chip.referenceLost_pre (c : Chip) : (c.referenceLost).pre = c.pre := by
  unfold Chip.referenceLost; split
  · split <;> simp
  · rfl
@[simp] theorem Chip.referenceLost_tap (c : Chip) : (c.referenceLost).tap = c.tap := by
  unfold Chip.referenceLost; split
  · split <;> simp
  · rfl
@[simp] theorem Chip.holdoverExpiry_sys (c : Chip) : (c.holdoverExpiry).sys = c.sys := by
  unfold Chip.holdoverExpiry; split <;> simp
@[simp] theorem Chip.holdoverExpiry_cfg (c : Chip) : (c.holdoverExpiry).cfg = c.cfg := by
  unfold Chip.holdoverExpiry; split <;> simp
@[simp] theorem Chip.holdoverExpiry_rng (c : Chip) : (c.holdoverExpiry).rng = c.rng := by
  unfold Chip.holdoverExpiry; split <;> simp
@[simp] theorem Chip.holdoverExpiry_sel (c : Chip) : (c.holdoverExpiry).sel = c.sel := by
  unfold Chip.holdoverExpiry; split <;> simp
@[simp] theorem Chip.holdoverExpiry_pln (c : Chip) : (c.holdoverExpiry).pln = c.pln := by
  unfold Chip.holdoverExpiry; split <;> simp
@[simp] theorem Chip.holdoverExpiry_msg (c : Chip) : (c.holdoverExpiry).msg = c.msg := by
  unfold Chip.holdoverExpiry; split <;> simp
@[simp] theorem Chip.holdoverExpiry_ret (c : Chip) : (c.holdoverExpiry).ret = c.ret := by
  unfold Chip.holdoverExpiry; split <;> simp
@[simp] theorem Chip.holdoverExpiry_pre (c : Chip) : (c.holdoverExpiry).pre = c.pre := by
  unfold Chip.holdoverExpiry; split <;> simp
@[simp] theorem Chip.holdoverExpiry_tap (c : Chip) : (c.holdoverExpiry).tap = c.tap := by
  unfold Chip.holdoverExpiry; split <;> simp
@[simp] theorem Chip.lockOn_sys (e : Int) (c : Chip) : (c.lockOn e).sys = c.sys := by
  simp [Chip.lockOn]
@[simp] theorem Chip.lockOn_cfg (e : Int) (c : Chip) : (c.lockOn e).cfg = c.cfg := by
  simp [Chip.lockOn]
@[simp] theorem Chip.lockOn_rng (e : Int) (c : Chip) : (c.lockOn e).rng = c.rng := by
  simp [Chip.lockOn]
@[simp] theorem Chip.lockOn_sel (e : Int) (c : Chip) : (c.lockOn e).sel = c.sel := by
  simp [Chip.lockOn]
@[simp] theorem Chip.lockOn_pln (e : Int) (c : Chip) : (c.lockOn e).pln = c.pln := by
  simp [Chip.lockOn]
@[simp] theorem Chip.lockOn_msg (e : Int) (c : Chip) : (c.lockOn e).msg = c.msg := by
  simp [Chip.lockOn]
@[simp] theorem Chip.lockOn_ret (e : Int) (c : Chip) : (c.lockOn e).ret = c.ret := by
  simp [Chip.lockOn]
@[simp] theorem Chip.lockOn_pre (e : Int) (c : Chip) : (c.lockOn e).pre = c.pre := by
  simp [Chip.lockOn]
@[simp] theorem Chip.lockOn_tap (e : Int) (c : Chip) : (c.lockOn e).tap = c.tap := by
  simp [Chip.lockOn]
@[simp] theorem Chip.needStep_sys (v : Word) (c : Chip) : (c.needStep v).sys = c.sys := by
  simp [Chip.needStep]
@[simp] theorem Chip.needStep_cfg (v : Word) (c : Chip) : (c.needStep v).cfg = c.cfg := by
  simp [Chip.needStep]
@[simp] theorem Chip.needStep_rng (v : Word) (c : Chip) : (c.needStep v).rng = c.rng := by
  simp [Chip.needStep]
@[simp] theorem Chip.needStep_sel (v : Word) (c : Chip) : (c.needStep v).sel = c.sel := by
  simp [Chip.needStep]
@[simp] theorem Chip.needStep_pln (v : Word) (c : Chip) : (c.needStep v).pln = c.pln := by
  simp [Chip.needStep]
@[simp] theorem Chip.needStep_msg (v : Word) (c : Chip) : (c.needStep v).msg = c.msg := by
  simp [Chip.needStep]
@[simp] theorem Chip.needStep_ret (v : Word) (c : Chip) : (c.needStep v).ret = c.ret := by
  simp [Chip.needStep]
@[simp] theorem Chip.needStep_pre (v : Word) (c : Chip) : (c.needStep v).pre = c.pre := by
  simp [Chip.needStep]
@[simp] theorem Chip.needStep_tap (v : Word) (c : Chip) : (c.needStep v).tap = c.tap := by
  simp [Chip.needStep]
@[simp] theorem Chip.lockStep_sys (e : Int) (c : Chip) : (c.lockStep e).sys = c.sys := by
  unfold Chip.lockStep; dsimp only; split <;> simp
@[simp] theorem Chip.lockStep_cfg (e : Int) (c : Chip) : (c.lockStep e).cfg = c.cfg := by
  unfold Chip.lockStep; dsimp only; split <;> simp
@[simp] theorem Chip.lockStep_rng (e : Int) (c : Chip) : (c.lockStep e).rng = c.rng := by
  unfold Chip.lockStep; dsimp only; split <;> simp
@[simp] theorem Chip.lockStep_sel (e : Int) (c : Chip) : (c.lockStep e).sel = c.sel := by
  unfold Chip.lockStep; dsimp only; split <;> simp
@[simp] theorem Chip.lockStep_pln (e : Int) (c : Chip) : (c.lockStep e).pln = c.pln := by
  unfold Chip.lockStep; dsimp only; split <;> simp
@[simp] theorem Chip.lockStep_msg (e : Int) (c : Chip) : (c.lockStep e).msg = c.msg := by
  unfold Chip.lockStep; dsimp only; split <;> simp
@[simp] theorem Chip.lockStep_ret (e : Int) (c : Chip) : (c.lockStep e).ret = c.ret := by
  unfold Chip.lockStep; dsimp only; split <;> simp
@[simp] theorem Chip.lockStep_pre (e : Int) (c : Chip) : (c.lockStep e).pre = c.pre := by
  unfold Chip.lockStep; dsimp only; split <;> simp
@[simp] theorem Chip.lockStep_tap (e : Int) (c : Chip) : (c.lockStep e).tap = c.tap := by
  unfold Chip.lockStep; dsimp only; split <;> simp
@[simp] theorem Chip.moveToEdge_sys (p : Int) (c : Chip) : (c.moveToEdge p).sys = c.sys := by
  simp [Chip.moveToEdge]
@[simp] theorem Chip.moveToEdge_cfg (p : Int) (c : Chip) : (c.moveToEdge p).cfg = c.cfg := by
  simp [Chip.moveToEdge]
@[simp] theorem Chip.moveToEdge_rng (p : Int) (c : Chip) : (c.moveToEdge p).rng = c.rng := by
  simp [Chip.moveToEdge]
@[simp] theorem Chip.moveToEdge_sel (p : Int) (c : Chip) : (c.moveToEdge p).sel = c.sel := by
  simp [Chip.moveToEdge]
@[simp] theorem Chip.moveToEdge_pln (p : Int) (c : Chip) : (c.moveToEdge p).pln = c.pln := by
  simp [Chip.moveToEdge]
@[simp] theorem Chip.moveToEdge_msg (p : Int) (c : Chip) : (c.moveToEdge p).msg = c.msg := by
  simp [Chip.moveToEdge]
@[simp] theorem Chip.moveToEdge_ret (p : Int) (c : Chip) : (c.moveToEdge p).ret = c.ret := by
  simp [Chip.moveToEdge]
@[simp] theorem Chip.moveToEdge_pre (p : Int) (c : Chip) : (c.moveToEdge p).pre = c.pre := by
  simp [Chip.moveToEdge]
@[simp] theorem Chip.moveToEdge_tap (p : Int) (c : Chip) : (c.moveToEdge p).tap = c.tap := by
  simp [Chip.moveToEdge]

/-! ## The Plan Store -/

@[simp] theorem Chip.adopt_sys (c : Chip) : (c.adopt).sys = c.sys := by
  unfold Chip.adopt; split
  · split
    · dsimp only; split <;> simp
    · rfl
  · split
    · split <;> simp
    · rfl
@[simp] theorem Chip.adopt_cfg (c : Chip) : (c.adopt).cfg = c.cfg := by
  unfold Chip.adopt; split
  · split
    · dsimp only; split <;> simp
    · rfl
  · split
    · split <;> simp
    · rfl
@[simp] theorem Chip.adopt_rng (c : Chip) : (c.adopt).rng = c.rng := by
  unfold Chip.adopt; split
  · split
    · dsimp only; split <;> simp
    · rfl
  · split
    · split <;> simp
    · rfl
@[simp] theorem Chip.adopt_cad (c : Chip) : (c.adopt).cad = c.cad := by
  unfold Chip.adopt; split
  · split
    · dsimp only; split <;> simp
    · rfl
  · split
    · split <;> simp
    · rfl
@[simp] theorem Chip.adopt_sel (c : Chip) : (c.adopt).sel = c.sel := by
  unfold Chip.adopt; split
  · split
    · dsimp only; split <;> simp
    · rfl
  · split
    · split <;> simp
    · rfl
@[simp] theorem Chip.adopt_msg (c : Chip) : (c.adopt).msg = c.msg := by
  unfold Chip.adopt; split
  · split
    · dsimp only; split <;> simp
    · rfl
  · split
    · split <;> simp
    · rfl
@[simp] theorem Chip.adopt_ret (c : Chip) : (c.adopt).ret = c.ret := by
  unfold Chip.adopt; split
  · split
    · dsimp only; split <;> simp
    · rfl
  · split
    · split <;> simp
    · rfl
@[simp] theorem Chip.adopt_pre (c : Chip) : (c.adopt).pre = c.pre := by
  unfold Chip.adopt; split
  · split
    · dsimp only; split <;> simp
    · rfl
  · split
    · split <;> simp
    · rfl
@[simp] theorem Chip.adopt_tap (c : Chip) : (c.adopt).tap = c.tap := by
  unfold Chip.adopt; split
  · split
    · dsimp only; split <;> simp
    · rfl
  · split
    · split <;> simp
    · rfl

/-- With nothing staged and no repair pending no adoption is due (R17), so that the current plan is current (R13). -/
theorem PlanStore.due_none (s : PlanStore) (n : Period) (h : s.staged = none) (k : s.repair = none) : s.due n = none := by
  simp [PlanStore.due, h, k]
theorem PlanStore.latest_of_none (s : PlanStore) (n : Period) (h : s.staged = none) (k : s.repair = none) :
    s.latest n = s.current := by
  simp [PlanStore.latest, s.due_none n h k]
/-- All that taking a fragment can do (R14, R17): nothing, or the adoption that is due followed by the assembly. -/
theorem Chip.takeFragment_cases (b : Burst) (c : Chip) :
    c.takeFragment b = c ∨ ∃ f : Fragment, b.aux = .fragment f ∧
      c.takeFragment b =
        { c.adopt with pln := c.adopt.pln.takeFragment c.adopt.cfg.capacity c.adopt.cad.period f } := by
  unfold Chip.takeFragment
  split
  · exact .inl rfl
  · split
    · exact .inr ⟨_, ‹_›, rfl⟩
    · exact .inl rfl
@[simp] theorem Chip.takeFragment_sys (b : Burst) (c : Chip) : (c.takeFragment b).sys = c.sys := by
  obtain h | ⟨f, -, h⟩ := c.takeFragment_cases b <;> simp [h]
@[simp] theorem Chip.takeFragment_cfg (b : Burst) (c : Chip) : (c.takeFragment b).cfg = c.cfg := by
  obtain h | ⟨f, -, h⟩ := c.takeFragment_cases b <;> simp [h]
@[simp] theorem Chip.takeFragment_rng (b : Burst) (c : Chip) : (c.takeFragment b).rng = c.rng := by
  obtain h | ⟨f, -, h⟩ := c.takeFragment_cases b <;> simp [h]
@[simp] theorem Chip.takeFragment_cad (b : Burst) (c : Chip) : (c.takeFragment b).cad = c.cad := by
  obtain h | ⟨f, -, h⟩ := c.takeFragment_cases b <;> simp [h]
@[simp] theorem Chip.takeFragment_sel (b : Burst) (c : Chip) : (c.takeFragment b).sel = c.sel := by
  obtain h | ⟨f, -, h⟩ := c.takeFragment_cases b <;> simp [h]
@[simp] theorem Chip.takeFragment_msg (b : Burst) (c : Chip) : (c.takeFragment b).msg = c.msg := by
  obtain h | ⟨f, -, h⟩ := c.takeFragment_cases b <;> simp [h]
@[simp] theorem Chip.takeFragment_ret (b : Burst) (c : Chip) : (c.takeFragment b).ret = c.ret := by
  obtain h | ⟨f, -, h⟩ := c.takeFragment_cases b <;> simp [h]
@[simp] theorem Chip.takeFragment_pre (b : Burst) (c : Chip) : (c.takeFragment b).pre = c.pre := by
  obtain h | ⟨f, -, h⟩ := c.takeFragment_cases b <;> simp [h]
@[simp] theorem Chip.takeFragment_tap (b : Burst) (c : Chip) : (c.takeFragment b).tap = c.tap := by
  obtain h | ⟨f, -, h⟩ := c.takeFragment_cases b <;> simp [h]

/-! ## The Preamp Unit -/

@[simp] theorem Chip.attemptFailed_sys (t : Transaction) (c : Chip) : (c.attemptFailed t).sys = c.sys := by
  unfold Chip.attemptFailed; dsimp only; split <;> rfl
@[simp] theorem Chip.attemptFailed_cfg (t : Transaction) (c : Chip) : (c.attemptFailed t).cfg = c.cfg := by
  unfold Chip.attemptFailed; dsimp only; split <;> rfl
@[simp] theorem Chip.attemptFailed_rng (t : Transaction) (c : Chip) : (c.attemptFailed t).rng = c.rng := by
  unfold Chip.attemptFailed; dsimp only; split <;> rfl
@[simp] theorem Chip.attemptFailed_cad (t : Transaction) (c : Chip) : (c.attemptFailed t).cad = c.cad := by
  unfold Chip.attemptFailed; dsimp only; split <;> rfl
@[simp] theorem Chip.attemptFailed_sel (t : Transaction) (c : Chip) : (c.attemptFailed t).sel = c.sel := by
  unfold Chip.attemptFailed; dsimp only; split <;> rfl
@[simp] theorem Chip.attemptFailed_pln (t : Transaction) (c : Chip) : (c.attemptFailed t).pln = c.pln := by
  unfold Chip.attemptFailed; dsimp only; split <;> rfl
@[simp] theorem Chip.attemptFailed_msg (t : Transaction) (c : Chip) : (c.attemptFailed t).msg = c.msg := by
  unfold Chip.attemptFailed; dsimp only; split <;> rfl
@[simp] theorem Chip.attemptFailed_ret (t : Transaction) (c : Chip) : (c.attemptFailed t).ret = c.ret := by
  unfold Chip.attemptFailed; dsimp only; split <;> rfl
@[simp] theorem Chip.attemptFailed_tap (t : Transaction) (c : Chip) : (c.attemptFailed t).tap = c.tap := by
  unfold Chip.attemptFailed; dsimp only; split <;> rfl
@[simp] theorem Chip.answerTimeout_sys (c : Chip) : (c.answerTimeout).sys = c.sys := by
  unfold Chip.answerTimeout; split
  · split <;> simp
  · rfl
@[simp] theorem Chip.answerTimeout_cfg (c : Chip) : (c.answerTimeout).cfg = c.cfg := by
  unfold Chip.answerTimeout; split
  · split <;> simp
  · rfl
@[simp] theorem Chip.answerTimeout_rng (c : Chip) : (c.answerTimeout).rng = c.rng := by
  unfold Chip.answerTimeout; split
  · split <;> simp
  · rfl
@[simp] theorem Chip.answerTimeout_cad (c : Chip) : (c.answerTimeout).cad = c.cad := by
  unfold Chip.answerTimeout; split
  · split <;> simp
  · rfl
@[simp] theorem Chip.answerTimeout_sel (c : Chip) : (c.answerTimeout).sel = c.sel := by
  unfold Chip.answerTimeout; split
  · split <;> simp
  · rfl
@[simp] theorem Chip.answerTimeout_pln (c : Chip) : (c.answerTimeout).pln = c.pln := by
  unfold Chip.answerTimeout; split
  · split <;> simp
  · rfl
@[simp] theorem Chip.answerTimeout_msg (c : Chip) : (c.answerTimeout).msg = c.msg := by
  unfold Chip.answerTimeout; split
  · split <;> simp
  · rfl
@[simp] theorem Chip.answerTimeout_ret (c : Chip) : (c.answerTimeout).ret = c.ret := by
  unfold Chip.answerTimeout; split
  · split <;> simp
  · rfl
@[simp] theorem Chip.answerTimeout_tap (c : Chip) : (c.answerTimeout).tap = c.tap := by
  unfold Chip.answerTimeout; split
  · split <;> simp
  · rfl
@[simp] theorem Chip.characterReceived_sys (d : Byte) (p s : Bool) (c : Chip) : (c.characterReceived d p s).sys = c.sys := by
  unfold Chip.characterReceived; split
  · split
    · rfl
    · simp
  · rfl
@[simp] theorem Chip.characterReceived_cfg (d : Byte) (p s : Bool) (c : Chip) : (c.characterReceived d p s).cfg = c.cfg := by
  unfold Chip.characterReceived; split
  · split
    · rfl
    · simp
  · rfl
@[simp] theorem Chip.characterReceived_rng (d : Byte) (p s : Bool) (c : Chip) : (c.characterReceived d p s).rng = c.rng := by
  unfold Chip.characterReceived; split
  · split
    · rfl
    · simp
  · rfl
@[simp] theorem Chip.characterReceived_cad (d : Byte) (p s : Bool) (c : Chip) : (c.characterReceived d p s).cad = c.cad := by
  unfold Chip.characterReceived; split
  · split
    · rfl
    · simp
  · rfl
@[simp] theorem Chip.characterReceived_sel (d : Byte) (p s : Bool) (c : Chip) : (c.characterReceived d p s).sel = c.sel := by
  unfold Chip.characterReceived; split
  · split
    · rfl
    · simp
  · rfl
@[simp] theorem Chip.characterReceived_pln (d : Byte) (p s : Bool) (c : Chip) : (c.characterReceived d p s).pln = c.pln := by
  unfold Chip.characterReceived; split
  · split
    · rfl
    · simp
  · rfl
@[simp] theorem Chip.characterReceived_msg (d : Byte) (p s : Bool) (c : Chip) : (c.characterReceived d p s).msg = c.msg := by
  unfold Chip.characterReceived; split
  · split
    · rfl
    · simp
  · rfl
@[simp] theorem Chip.characterReceived_ret (d : Byte) (p s : Bool) (c : Chip) : (c.characterReceived d p s).ret = c.ret := by
  unfold Chip.characterReceived; split
  · split
    · rfl
    · simp
  · rfl
@[simp] theorem Chip.characterReceived_tap (d : Byte) (p s : Bool) (c : Chip) : (c.characterReceived d p s).tap = c.tap := by
  unfold Chip.characterReceived; split
  · split
    · rfl
    · simp
  · rfl

/-! ## The Burst Selector -/

@[simp] theorem Chip.evalRing_sys (c : Chip) : (c.evalRing).sys = c.sys := by
  unfold Chip.evalRing; dsimp only; split <;> rfl
@[simp] theorem Chip.evalRing_cfg (c : Chip) : (c.evalRing).cfg = c.cfg := by
  unfold Chip.evalRing; dsimp only; split <;> rfl
@[simp] theorem Chip.evalRing_rng (c : Chip) : (c.evalRing).rng = c.rng := by
  unfold Chip.evalRing; dsimp only; split <;> rfl
@[simp] theorem Chip.evalRing_cad (c : Chip) : (c.evalRing).cad = c.cad := by
  unfold Chip.evalRing; dsimp only; split <;> rfl
@[simp] theorem Chip.evalRing_pln (c : Chip) : (c.evalRing).pln = c.pln := by
  unfold Chip.evalRing; dsimp only; split <;> rfl
@[simp] theorem Chip.evalRing_msg (c : Chip) : (c.evalRing).msg = c.msg := by
  unfold Chip.evalRing; dsimp only; split <;> rfl
@[simp] theorem Chip.evalRing_ret (c : Chip) : (c.evalRing).ret = c.ret := by
  unfold Chip.evalRing; dsimp only; split <;> rfl
@[simp] theorem Chip.evalRing_pre (c : Chip) : (c.evalRing).pre = c.pre := by
  unfold Chip.evalRing; dsimp only; split <;> rfl
@[simp] theorem Chip.evalRing_tap (c : Chip) : (c.evalRing).tap = c.tap := by
  unfold Chip.evalRing; dsimp only; split <;> rfl
@[simp] theorem Chip.lapSilenceEnd_sys (p : Port) (c : Chip) : (c.lapSilenceEnd p).sys = c.sys := by
  unfold Chip.lapSilenceEnd; split <;> simp
@[simp] theorem Chip.lapSilenceEnd_cfg (p : Port) (c : Chip) : (c.lapSilenceEnd p).cfg = c.cfg := by
  unfold Chip.lapSilenceEnd; split <;> simp
@[simp] theorem Chip.lapSilenceEnd_rng (p : Port) (c : Chip) : (c.lapSilenceEnd p).rng = c.rng := by
  unfold Chip.lapSilenceEnd; split <;> simp
@[simp] theorem Chip.lapSilenceEnd_cad (p : Port) (c : Chip) : (c.lapSilenceEnd p).cad = c.cad := by
  unfold Chip.lapSilenceEnd; split <;> simp
@[simp] theorem Chip.lapSilenceEnd_pln (p : Port) (c : Chip) : (c.lapSilenceEnd p).pln = c.pln := by
  unfold Chip.lapSilenceEnd; split <;> simp
@[simp] theorem Chip.lapSilenceEnd_msg (p : Port) (c : Chip) : (c.lapSilenceEnd p).msg = c.msg := by
  unfold Chip.lapSilenceEnd; split <;> simp
@[simp] theorem Chip.lapSilenceEnd_ret (p : Port) (c : Chip) : (c.lapSilenceEnd p).ret = c.ret := by
  unfold Chip.lapSilenceEnd; split <;> simp
@[simp] theorem Chip.lapSilenceEnd_pre (p : Port) (c : Chip) : (c.lapSilenceEnd p).pre = c.pre := by
  unfold Chip.lapSilenceEnd; split <;> simp
@[simp] theorem Chip.lapSilenceEnd_tap (p : Port) (c : Chip) : (c.lapSilenceEnd p).tap = c.tap := by
  unfold Chip.lapSilenceEnd; split <;> simp

/-! ## A code write (R182) -/

theorem Chip.codeWrite_loading {i : CellId} {tag : BitVec 16} {code : Byte} {act : Action} {c : Chip}
    (h : c.sys.mode = .loading) : c.codeWrite i tag code act = c := by
  simp [Chip.codeWrite, h]

theorem Chip.codeWrite_overrun {i : CellId} {tag : BitVec 16} {code : Byte} {act : Action} {c : Chip}
    (h : c.sys.mode ≠ .loading) (hr : (c.cellAt i).state = .running) : c.codeWrite i tag code act = c.markOverrun i := by
  unfold Chip.codeWrite
  split <;> simp_all

theorem Chip.codeWrite_halted {i : CellId} {tag : BitVec 16} {code : Byte} {act : Action} {c : Chip}
    (h : c.sys.mode = .halted) (hr : (c.cellAt i).state ≠ .running) :
    c.codeWrite i tag code act = (c.recordCode i tag code).failFree i .notRunning := by
  simp [Chip.codeWrite, h, hr]

theorem Chip.codeWrite_taken {i : CellId} {tag : BitVec 16} {code : Byte} {act : Action} {c : Chip}
    (h : c.sys.mode = .run) (hr : (c.cellAt i).state ≠ .running) :
    c.codeWrite i tag code act = act i (c.cellAt i).args (c.recordCode i tag code) := by
  simp [Chip.codeWrite, h, hr]

/-- What a code write can do: nothing, mark an overrun, fail NOT RUNNING, or run the order's action. -/
theorem Chip.codeWrite_cases (i : CellId) (tag : BitVec 16) (code : Byte) (act : Action) (c : Chip) :
    c.codeWrite i tag code act = c ∨ c.codeWrite i tag code act = c.markOverrun i ∨
    c.codeWrite i tag code act = (c.recordCode i tag code).failFree i .notRunning ∨
    c.codeWrite i tag code act = act i (c.cellAt i).args (c.recordCode i tag code) := by
  unfold Chip.codeWrite
  split
  · exact .inl rfl
  · split
    · exact .inr (.inl rfl)
    · exact .inr (.inr (.inl rfl))
  · split
    · exact .inr (.inl rfl)
    · exact .inr (.inr (.inr rfl))

/-! ## Completing a cell (R183) -/

/-- A completion of a cell that is not RUNNING: the cell's result is in place, and nothing else changes. -/
theorem Chip.finish_atOnce {i : CellId} {st : CellState} {r : Reason} {v : Word} {c : Chip}
    (h : c.ord.cells[i].state ≠ .running) :
    c.finish i st r v =
      c.onCell i (fun x => { x with state := st, reason := r, value := v, order := none }) := by
  unfold Chip.finish
  dsimp only
  rw [if_neg h]
  rfl

/-- A completion from RUNNING posts ORDER DONE with the cell and the reason code (R183). -/
theorem Chip.finish_running {i : CellId} {st : CellState} {r : Reason} {v : Word} {c : Chip}
    (h : c.ord.cells[i].state = .running) :
    c.finish i st r v =
      (c.onCell i (fun x => { x with state := st, reason := r, value := v, order := none })).post .orderDone i.val
        (wordOf (reasonCode r)) := by
  unfold Chip.finish
  dsimp only
  rw [if_pos h]
  rfl

/-! ## Events (R186) -/

/-- An event posted while fewer than 32 are held is appended. -/
theorem OrderUnit.post_room {o : OrderUnit} {e : Event} (h : o.events.length < 32) :
    o.post e = { o with events := o.events ++ [e] } := by
  simp [OrderUnit.post, h]

/-- An event posted while 32 are held is discarded, and the overflow mark is set. -/
theorem OrderUnit.post_full {o : OrderUnit} {e : Event} (h : ¬ o.events.length < 32) :
    o.post e = { o with overflow := true } := by
  simp [OrderUnit.post, h]

@[simp] theorem OrderUnit.post_cells (o : OrderUnit) (e : Event) : (o.post e).cells = o.cells := by
  unfold OrderUnit.post; split <;> rfl

@[simp] theorem OrderUnit.post_freeCount (o : OrderUnit) (e : Event) : (o.post e).freeCount = o.freeCount := by
  unfold OrderUnit.post; split <;> rfl

/-- A posting never takes the queue above 32. -/
theorem OrderUnit.post_length {o : OrderUnit} (e : Event) (h : o.events.length ≤ 32) : (o.post e).events.length ≤ 32 := by
  unfold OrderUnit.post
  split
  · simp; omega
  · exact h

@[simp] theorem Chip.post_cellAt (k : EventKind) (n : Nat) (v : Word) (c : Chip) (i : CellId) :
    (c.post k n v).cellAt i = c.cellAt i := by
  simp [Chip.post, Chip.cellAt]

/-! ## Things that fall together -/

/-- What taking a due step in a free order can do: nothing where it is not due; where it is, one draw, and the step or not. -/
theorem Chip.takeFirst_cases (due : Bool) (f : Chip → Chip) (c : Chip) :
    due = false ∧ c.takeFirst due f = c ∨ due = true ∧ (c.takeFirst due f = f c.drawn ∨ c.takeFirst due f = c.drawn) := by
  unfold Chip.takeFirst
  cases due
  · exact .inl ⟨rfl, rfl⟩
  · refine .inr ⟨rfl, ?_⟩
    rw [if_pos rfl]
    split
    · exact .inl rfl
    · exact .inr rfl

/-- A step that is not due is not taken, and draws nothing. -/
@[simp] theorem Chip.takeFirst_not_due (f : Chip → Chip) (c : Chip) : c.takeFirst false f = c := rfl

/-- Two things in a free order: both are taken, in one order or the other, with one draw. -/
theorem Chip.eitherOrder_cases (f g : Chip → Chip) (c : Chip) :
    c.eitherOrder f g = g (f c.drawn) ∨ c.eitherOrder f g = f (g c.drawn) := by
  unfold Chip.eitherOrder
  split
  · exact .inl rfl
  · exact .inr rfl

/-- The end of a staged assembly: nothing where it is not due, otherwise the assembly is empty (R18). -/
theorem PlanStore.expire_cases (s : PlanStore) :
    s.expiryDue = false ∧ s.expire = s ∨ s.expiryDue = true ∧ s.expire = { s with asmStaged := none, expiryDue := false } := by
  unfold PlanStore.expire
  cases h : s.expiryDue
  · exact .inl ⟨rfl, rfl⟩
  · exact .inr ⟨rfl, rfl⟩

/-- A RELEASE is sent for a claim that no record uses (R176). -/
theorem Chip.sendRelease_cases (owner : NodeId) (i : InputId) (c : Chip) :
    c.inUse owner i = true ∧ c.sendRelease owner i = c ∨
    c.inUse owner i = false ∧ c.sendRelease owner i = c.enterQuiet owner (.release i) := by
  unfold Chip.sendRelease
  cases h : c.inUse owner i
  · exact .inr ⟨rfl, rfl⟩
  · exact .inl ⟨rfl, rfl⟩

/-! ## The step -/

/-- With a command at the front of the queue, the step is that command's meaning on the queue's rest. -/
theorem step_cons (i : Instr) (rest : List Instr) (s : State) (h : s.pending = i :: rest) :
    step s = exec i { s with pending := rest } := by
  simp [step, h]

/-- On an empty queue nothing happens. -/
theorem step_nil (s : State) (h : s.pending = []) : step s = .next s := by
  simp [step, h]

end Sys2Proof.Machine
end

