-- ==== Sys2Proof/Tests/Slice0.lean ====
section
/-! SUPPORT. Tests of the model: ill-formed commands that the checks refuse, the manual's worked figures, and for every statement a
concrete state that meets its hypotheses. -/

namespace Sys2Proof.Tests

open Sys2Proof.Machine

/-! ## Small states -/

/-- Node 3 in RUN at 48 kHz, D = 4, P = 6, with the WCK source, itself the authority, and 8 preamp inputs. -/
def node3 : Chip :=
  { sys := { mode := .run, load := .finished }
    cfg := { nodeId := 3, serial := 77, rank := 1, authority := 3, source := .wck, holdover := 480, blockLen := 4,
             blockWidth := 10, preampCount := 8 }
    sel := { delay := 6 }
    tap := { banks := (Vector.replicate 2 (clearedBank 0)).set 1 (clearedBank 1), j := 2 } }

/-- A machine with an empty queue and empty memory around a part. -/
def at0 (c : Chip) : State := { pending := [], mem := [], straps := 1, chip := c }

/-- Cell 0 with the first five argument copies given. -/
def withArgs (a b d e f : Word) (c : Chip) : Chip :=
  c.onCell 0 (fun x => { x with args := ((((x.args.set 0 a).set 1 b).set 2 d).set 3 e).set 4 f })

/-- Cell 0 RUNNING with an order that waits. -/
def runningCell (code : Byte) (w : WaitFor) (c : Chip) : Chip :=
  c.onCell 0 (fun x => { x with state := .running, order := some (inProgress code x.args w) })

/-- Node 3 with node 1 in the roster. -/
def withPeer : Chip := node3.onSel (·.onOrigin 1 (fun x => { x with member := true, silence := 0 }))

/-- Record 5 HELD on input 5 of node 1. -/
def holding5 : Chip := withPeer.onRecord 5 (fun x => { x with claim := .held, slotInput := some (1, 5), binding := some 5 })

/-- A burst of node 1. -/
def burst1 : Burst :=
  { origin := 1, serial := 11, period := 0, version := 0, hop := 0
    cadence := { state := .locked, role := .timing, ref := some 1, rank := 0, unsync := false }
    ports := ⟨.up, .up⟩, aux := .absent, answer := none, slots := [] }

/-- The same burst as node 3 would have sent it. -/
def burst3 (serial : Word) : Burst := { burst1 with origin := 3, serial := serial }

/-- A received check word equal to the computed one is good. -/
theorem good_own (b : Burst) : goodCheck b (checkWord b) = true := by simp [goodCheck]

/-- A received check word with every bit inverted is bad. -/
theorem bad_inverted (b : Burst) : goodCheck b (~~~ checkWord b) = false := by
  simp only [goodCheck, beq_eq_false_iff_ne]
  intro h
  exact absurd (congrArg (fun w : Word => w.getLsbD 0) h) (by simp)

/-! ## Ill-formed commands -/

theorem test_wf_elapsed : (Instr.burstArrival .east 128 burst1 0).wf = false := by decide
theorem test_wf_slots : (Instr.burstArrival .east 0 { burst1 with slots := List.replicate 97 {} } 0).wf = false := by decide
theorem test_wf_gain_step :
    (Instr.burstArrival .east 0 { burst1 with aux := .message ⟨3, true, .gain 5 61⟩ } 0).wf = false := by decide
theorem test_wf_phase_high : (Instr.wckEdge 32).wf = false := by decide
theorem test_wf_phase_low : (Instr.wckEdge (-33)).wf = false := by decide
theorem test_wf_unknown_restart : (Instr.unknownOrder 0 0 0 18).wf = false := by decide
theorem test_wf_unknown_zero : (Instr.unknownOrder 0 0 0 0).wf = false := by decide
theorem test_wf_good : (Instr.burstArrival .east 127 burst1 0).wf = true ∧ (Instr.wckEdge (-32)).wf = true ∧
    (Instr.unknownOrder 0 0 0 19).wf = true := by decide

/-! ## The manual's figures -/

/-- The table of values after R127. -/
theorem test_gain_table : gainM 12 = 2097152 ∧ gainM (-6) = 741455 ∧ gainM (-12) = 524288 ∧ gainM (-30) = 185364 ∧
    gainM (-59) = 34717 := by decide

/-- Case 1 and case 2 of chapter 7. -/
theorem test_output : outSample 1000000 741455 0 0 = 707107 ∧ outSample 1000000 741455 (-200000) 524288 = 607107 := by decide

/-- Cases 3 to 6 of chapter 7: compensation, its clamp, saturation, a negative tie. -/
theorem test_compensation : compensate 1000000 (compGain (compRaw (some .mic) (some 30) (some 36))) = 500000 ∧
    compGain (compRaw (some .mic) (some 60) (some 20)) = 48 ∧ compensate 100000 48 = 1600000 ∧
    outSample 8000000 2097152 0 0 = 8388607 ∧ outSample (-3) 524288 0 0 = -2 := by decide

/-- Cases 7 and 8 of chapter 7: the first step of a fade-out, and of a return in mid-fade. -/
theorem test_fades : (((⟨1048576, 1048576, 1, 1⟩ : Ramp).replan 0 48).advance).value = 1026730 ∧
    (((⟨830116, 0, 21846, 48⟩ : Ramp).replan 1048576 96).advance).value = 832392 := by decide

/-- Case 10 of chapter 7: the ducked target and its step. -/
theorem test_duck : presentTarget (-6) (-24) true = 185364 ∧ ((⟨741455, 741455, 1, 1⟩ : Ramp).replan 185364 48).step = 11586 := by
  decide

/-- Chapter 8: two keyed talkers saturate at 8,388,607, and the sum of period 60,100 is a tie rounded away from zero. -/
theorem test_talk_sum : talkInput 3 (Vector.ofFn (fun i : Fin 4 =>
      { state := .keyed, sample := if i.val = 0 then 3000000 else 6000000 })) = 8388607 ∧
    outSample 2000000 262144 8388607 524288 = 4694304 := by decide

/-- R147: a key up in KEYED starts the hold, and with a hold length of 0 the entry is QUIET at once. -/
theorem test_key_up : (({ state := .keyed } : TalkEntry).change 2400 (some false)).hold = some 2400 ∧
    (({ state := .keyed } : TalkEntry).change 0 (some false)).state = .quiet := by decide

/-- R105: offset 263 of a 16-channel tap with D = 16 is half 1, frame 0, channel 7; word 131,315 of the worked tap is frame 15,
channel 3 of half 0. -/
theorem test_tap_place : ({ kind := .send, base := 131072, chans := 16, first := 0, just := .left } : Tap).place 16 131335 =
      some ⟨1, 0, 7⟩ ∧
    ({ kind := .send, base := 131072, chans := 16, first := 0, just := .left } : Tap).place 16 131315 = some ⟨0, 15, 3⟩ := by
  decide

/-- R195: a LEFT word with its key bit, and a RIGHT read with copies of the sign. -/
theorem test_tap_words : wordSample .left 0x12345601#32 = 0x123456#24 ∧ wordKey .left 0x12345601#32 = true ∧
    wordSample .right 0xFF345601#32 = 0x345601#24 ∧
    returnWord .right 0x800000#24 ⟨true, false, false, false, 2⟩ = 0xFF800000#32 ∧
    returnWord .left 0x123456#24 ⟨true, true, false, false, 2⟩ = 0x12345625#32 := by decide

/-- R116: J is ceil(P / D). -/
theorem test_j : jOf 6 16 = 1 ∧ jOf 16 4 = 4 ∧ jOf 12 16 = 1 := by decide

/-- R7: the successor of 7 is 8, and that of 65,535 is 1. -/
theorem test_successor : succVersion 7 = 8 ∧ succVersion 65535 = 1 := by decide

/-- R1: at a difference of exactly 2^31 each of the two periods is earlier than the other. -/
theorem test_half_range : earlier 0 0x80000000 = true ∧ earlier 0x80000000 0 = true ∧ later 1 0xFFFFFFFF = true := by decide

/-- R71: maximum ages of 30, 214 and 330 give an advice of 6. -/
theorem test_advice : (((({} : Selector).onPath 0 .east (fun x => { x with maxAge := some 30 })).onPath 1 .east
    (fun x => { x with maxAge := some 214 })).onPath 2 .west (fun x => { x with maxAge := some 330 })).adviceOf 3 = 6 := by
  decide

/-- R6: a node that owns LINE slots 0 to 3 and MIC slots 4 to 35 has slot 10 at own position 10; with LINE slots 100 to 103 and MIC
slots 0 to 31, slot 101 is position 33. -/
theorem test_positions :
    ({ version := 1, allots := [⟨1, 0, 4, .line⟩, ⟨1, 4, 32, .mic⟩] } : Plan).position 1 10 = 10 ∧
    ({ version := 1, allots := [⟨1, 0, 32, .mic⟩, ⟨1, 100, 4, .line⟩] } : Plan).position 1 101 = 33 := by decide

/-- R63: an age of P × 64 is late, and the 32nd period after the next one to present is out of window. -/
theorem test_classes : ({ delay := 6, next := 100 } : Selector).classOf 105 384 = .late ∧
    ({ delay := 6, next := 100 } : Selector).classOf 99 0 = .late ∧
    ({ delay := 6, next := 100 } : Selector).classOf 131 (-5) = .inside ∧
    ({ delay := 6, next := 100 } : Selector).classOf 132 (-5) = .outside := by decide

/-- R161: parity even and stop at rest make a good character; 133 has three ones, 30 has four; the line carries the start bit, the data
bits from the least significant up, parity and stop. -/
theorem test_character : goodCharacter 30 false true = true ∧ goodCharacter 30 true true = false ∧
    goodCharacter 30 false false = false ∧ commandChars 5 30 = [⟨133, true, true⟩, ⟨30, false, true⟩] ∧
    (Character.sent 133).frame = [false, true, false, true, false, false, false, false, true, true, true] := by decide

/-- R12 and R199: a plan word read back is the allotment it was made from. -/
theorem test_plan_word : planWord (some ⟨2, 32, 32, .mic⟩) = 0x80202020#32 ∧
    wordPlan 0x80202020#32 = some ⟨2, 32, 32, .mic⟩ := by decide

/-- Period 9,990 of chapter 1: the grown allotment gives a draft total of 84. -/
theorem test_draft_total :
    allotTotal [⟨1, 0, 32, .mic⟩, ⟨2, 32, 32, .mic⟩, ⟨3, 64, 16, .mix⟩, ⟨3, 80, 2, .talk⟩, ⟨0, 82, 2, .talk⟩] = 84 ∧
    allotRefusal 256 [⟨1, 0, 32, .mic⟩, ⟨3, 64, 16, .mix⟩, ⟨3, 80, 2, .talk⟩, ⟨0, 82, 2, .talk⟩] ⟨2, 32, 32, .mic⟩ = none := by
  decide

/-- R184: TRIM with −1,000 sets −144, and WANT with 4,000,000,000 sets 60. -/
theorem test_trim_clamp : (((withArgs 5 (BitVec.ofInt 32 (-1000)) 0 0 0 node3).codeWrite 0 9 1 actTrim).recordAt 5).trim = -144 := by
  decide +kernel
theorem test_want_clamp :
    (((withArgs 5 (BitVec.ofNat 32 4000000000) 0 0 0 node3).codeWrite 0 9 2 actWant).recordAt 5).want = some 60 := by
  decide +kernel

/-- Period 10,000 of chapter 1: ANNOUNCE(50) clamps the lead to 96, so E is 10,096 and the version 8. -/
theorem test_announce :
    ((actAnnounce 0 #v[50, 0, 0, 0, 0, 0, 0]
        { node3 with cad := { node3.cad with period := 10000 }, pln := { current := { version := 7 } } }).pln.staged.map
      (fun x => (x.e, x.plan.version))) = some (10096, 8) := by decide +kernel

/-- Period 20,050 of chapter 2: DRILL(East, CORRUPT, 480) completes DONE with 480. -/
theorem test_drill :
    ((actDrill 0 #v[0, 2, 480, 0, 0, 0, 0] node3).cellAt 0).value = 480 ∧
    ((actDrill 0 #v[0, 2, 480, 0, 0, 0, 0] node3).portOf .east).txMode = .corrupt := by decide +kernel

/-- R193: at the first tick of RUN the sweep tops the queue up to 4, and join quiet has begun. -/
theorem test_first_tick : node3.firstTick.pre.queue.length = 4 ∧ node3.firstTick.rng.joinQuiet = 1 ∧
    node3.firstTick.sel.next = 0xFFFFFFFB#32 := by decide +kernel

/-- R40: a tick begins the next period, and the strobe is not raised off a boundary. -/
theorem test_tick : node3.tick.cad.period = 1 ∧ node3.tick.tap.strobe = none := by decide +kernel

/-- An image of node 0 that lists nothing. -/
def emptyImage : Image :=
  { nodeId := 0, serial := 0, rank := 0, authority := 0, rate := 48000, source := some .internal, holdover := 0, delay := 0,
    blockLen := 4, blockWidth := 0, taps := [], planVersion := 0, plan := [], records := [], talk := [], talkAttack := none, talkRelease := none, talkHold := none,
    preampCount := 0, initialSteps := [], settle := 0, attention := 0 }
/-- The bytes of a configuration memory, four for each word, the most significant first (R191). -/
def bytesOf (words : List Word) : List Byte := words.flatMap (fun w => [lane w 3, lane w 2, lane w 1, lane w 0])
/-- Sixteen words whose sum is 0. -/
def goodBytes : List Byte := [0, 0, 6, 0x40, 0, 0, 0, 16] ++ bytesOf (List.replicate 13 0 ++ [0 - 0x650])
/-- R191: a configuration memory of zeros fails the FORMAT check; one with the format word and a length of 15 the LENGTH check. -/
theorem test_load_checks : loadCheck (bytesOf (List.replicate 16 0)) emptyImage 0 = some .format ∧
    loadCheck (bytesOf [0x640, 15]) emptyImage 0 = some .length ∧ loadCheck (bytesOf [0x640, 16]) emptyImage 0 = some .sum ∧
    loadCheck goodBytes emptyImage 0 = none ∧ loadCheck goodBytes { emptyImage with nodeId := 8 } 0 = some .identity ∧
    loadCheck goodBytes { emptyImage with blockLen := 5 } 0 = some .timing ∧
    loadCheck goodBytes { emptyImage with plan := [⟨1, 250, 7, some .mic⟩] } 0 = some .plan ∧
    loadCheck goodBytes { emptyImage with taps := [⟨some .send, 0, 90, 7, some .left⟩] } 1000 = some .taps ∧
    loadCheck goodBytes { emptyImage with talk := [⟨4, 0⟩] } 0 = some .list := by decide +kernel

/-- R199: the record word of a record at unity, HELD and PRESENT, with A_last 36. -/
theorem test_record_word : ({ main := { value := 1048576 }, claim := .held, present := true, aLast := some 36 } : Record).reportWord =
    BitVec.ofNat 32 (131072 * 1024 + 2 * 256 + 128 + 36) := by decide

/-- R198: summary word 0 right after power-on with the straps at 0 is 0, and a read of word 32 in LOADING is 0 (R180). -/
theorem test_summary : State.reset.chip.reportWord 0 = 0 ∧ State.reset.chip.reportWord 32 = 0 ∧
    (at0 node3).hostRead 1 = 0 := by decide +kernel

/-! ## The step from reset -/

/-- A command in front of the queue is run by the step. -/
theorem test_step_reset : Sys2Proof.Machine.step { State.reset with pending := [.resetRelease] } =
    .next (State.reset.onChip (·.resetRelease)) := rfl

/-! ## A state for every statement with hypotheses -/

def reading : Chip := { State.reset.chip with sys := { load := .reading, strapBase := 1 } }

theorem test_witness_StepTakesFront : (at0 node3).pending = [] := rfl
theorem test_witness_ResetCommandsMakeFullReset : (at0 node3).chip.sys.load ≠ .held ∧ State.reset.chip.sys.load = .held := by decide
theorem test_witness_BadImageHalts : reading.sys.mode = .loading ∧ reading.sys.load = .reading ∧
    loadCheck [] emptyImage reading.windowBase = some .format := by decide +kernel
def litReading : Chip := reading.onPort .east (fun x => { x with light := true })
/-- The same image with two items of record 7, the second with values to be clamped, two items of talk entry 2, and talk timings. -/
def settingsImage : Image :=
  { emptyImage with
    records := [⟨7, 3, 1, 30, true, .mute, 5, 6, 2, -12, -24⟩, ⟨7, 256, 99, 63, false, .pass, 0, 9999, 1, -200, 7⟩]
    talk := [⟨2, 9⟩, ⟨2, 255⟩], talkAttack := some 0, talkHold := some (-1) }
/-- R192: the later item of a record replaces the earlier, and its values are clamped; a record that is not listed keeps its defaults. -/
theorem test_record_items : (settingsImage.recordTable[(7 : RecordId)]).binding = none ∧
    (settingsImage.recordTable[(7 : RecordId)]).trim = 48 ∧ (settingsImage.recordTable[(7 : RecordId)]).fadeIn = 4800 ∧
    (settingsImage.recordTable[(7 : RecordId)]).level = -144 ∧ (settingsImage.recordTable[(8 : RecordId)]).fadeIn = 96 ∧
    settingsImage.returnUnit.hold = 0 ∧ (settingsImage.talkTable[(2 : Fin 4)]).binding = some 255 := by decide +kernel
theorem test_witness_GoodImageEntersRun_settings : loadCheck goodBytes settingsImage litReading.windowBase = none ∧
    (∀ x ∈ settingsImage.records, x.record ≠ 8) ∧ (∀ x ∈ settingsImage.talk, x.entry ≠ 1) ∧
    settingsImage.records = [⟨7, 3, 1, 30, true, .mute, 5, 6, 2, -12, -24⟩] ++
      ⟨7, 256, 99, 63, false, .pass, 0, 9999, 1, -200, 7⟩ :: [] ∧
    settingsImage.talk = [⟨2, 9⟩] ++ ⟨2, 255⟩ :: [] ∧ settingsImage.talkAttack = some 0 ∧
    settingsImage.talkRelease = none ∧ { settingsImage with talkRelease := some 480 }.talkRelease = some 480 ∧
    settingsImage.talkHold = some (-1) ∧ emptyImage.talkAttack = none ∧ emptyImage.talkHold = none ∧
    { settingsImage with records := [⟨7, 3, 1, 30, true, .mute, 5, 6, 2, -12, -24⟩] }.records =
      [] ++ ⟨7, 3, 1, 30, true, .mute, 5, 6, 2, -12, -24⟩ :: [] := by decide +kernel
theorem test_witness_GoodImageEntersRun : litReading.sys.mode = .loading ∧ litReading.sys.load = .reading ∧
    loadCheck goodBytes emptyImage litReading.windowBase = none ∧ litReading.cad.period = 0 ∧
    (litReading.portOf .east).rx = .dark ∧ (litReading.portOf .east).light = true := by decide +kernel
theorem test_witness_TickBeginsPeriod : (at0 node3).chip.sys.mode = .run ∧ node3.rng.joinQuiet < 192 ∧
    ({ node3 with rng := { node3.rng with joinQuiet := 192 } } : Chip).rng.joinQuiet = 192 ∧
    State.reset.chip.sys.mode ≠ .run := by decide
/-- Port East at work in a receive state with a drill, and node 1 a member with a maximum age of 330 on Port West. -/
def counting (st : RxState) (n silence : Nat) : Chip :=
  (node3.onPort .east (fun _ =>
    { rx := st, acquireTimer := some n, windowTicks := n, quarTimer := some n, drill := n, txMode := .corrupt })).onSel (fun s =>
      (s.onOrigin 1 (fun x => { x with member := true, silence := silence })).onPath 1 .west (fun x =>
        { x with maxAge := some 330 }))
theorem test_witness_TickBeginsPeriod_counts : (∀ st ∈ [RxState.acquire, .up, .quarantine], ∀ n ∈ [2, 46],
      (counting st n 94).sys.mode = .run ∧ ((counting st n 94).portOf .east).rx = st ∧
      ((counting st n 94).portOf .east).acquireTimer = some n ∧ ((counting st n 94).portOf .east).windowTicks < 47 ∧
      ((counting st n 94).portOf .east).quarTimer = some n ∧ 1 < ((counting st n 94).portOf .east).drill) ∧
    ((counting .up 2 94).sel.origins[(1 : NodeId)]).member = true ∧
    ((counting .up 2 94).sel.origins[(1 : NodeId)]).silence = 94 ∧ (1 : NodeId) ≠ (counting .up 2 94).cfg.nodeId ∧
    (((counting .up 2 94).sel.paths[(1 : NodeId)]).get .west).maxAge = some 330 ∧
    (∀ (o : NodeId) (p : Port), (node3.sel.paths[o]).get p = { silence := 96 }) ∧ node3.pre.port ≠ .awaiting ∧
    ({ node3 with pre := { node3.pre with port := .awaiting } } : Chip).pre.port = .awaiting := by
  refine ⟨by decide, by decide, by decide, by decide, by decide, fun o p => ?_, by decide, by decide⟩
  revert o; cases p <;> decide
/-- R71: a maximum age of 330 gives an advice of 6; R75: a silence of 94 counts to 95. -/
theorem test_tick_counts : ((counting .acquire 2 94).countTick 64).sel.advice = 6 ∧
    (((counting .acquire 2 94).countTick 64).sel.origins[(1 : NodeId)]).silence = 95 := by decide +kernel
theorem test_witness_TickAtBoundarySwapsBanks : node3.sys.mode = .run ∧ node3.sel.pending = none ∧ node3.sel.deferred = false ∧
    node3.pln.staged = none ∧ node3.pln.repair = none ∧ node3.tap.taps.length ≤ 12 ∧
    (node3.cad.period + 1).toNat % node3.cfg.blockLen ≠ 0 ∧
    ((node3.onCad (fun x => { x with period := 3 })).cad.period + 1).toNat % node3.cfg.blockLen = 0 ∧
    0 < unwritten (clearedBank 0) 4 96 { kind := .send, base := 4000, chans := 2, first := 94, just := .left } ∧
    node3.tap.eligible = none ∧ (node3.restartHandover 0xFFFFFFFA#32).tap.eligible = some 0xFFFFFFFA#32 ∧
    atOrAfter (4 - BitVec.ofNat 32 ((1 + node3.tap.j) * 4)) 0xFFFFFFFA#32 = false ∧
    atOrAfter (12 - BitVec.ofNat 32 ((1 + node3.tap.j) * 4)) 0xFFFFFFFA#32 = true := by
  decide +kernel
/-- R116: half the number range after a restart the blocks are shown as before, and the first block of a restart is awaited. -/
theorem test_handover : ((node3.tap.hand 4 0x80000008#32).shown[(0 : Fin 2)]) = some 536870914 ∧
    (((node3.restartHandover 0xFFFFFFFA#32).tap.hand 4 0xFFFFFFF8#32).shown[(0 : Fin 2)]) = none ∧
    ((node3.restartHandover 0xFFFFFFFA#32).tap.hand 4 0xFFFFFFFC#32).eligible = none := by decide +kernel
theorem test_witness_TickWritesReceiveBank : node3.sys.mode = .run ∧ node3.sel.pending = none ∧ node3.sel.deferred = false ∧
    earlier (node3.cad.period + 1 - BitVec.ofNat 32 node3.sel.delay) node3.sel.next = true ∧
    earlier (node3.cad.period + 1 - BitVec.ofNat 32 node3.sel.delay)
      (node3.onSel (fun x => { x with next := 0xFFFFFFFB#32 })).sel.next = false ∧
    (0 : NodeId) ≠ node3.cfg.nodeId ∧ (node3.sel.origins[(0 : NodeId)]).member = false ∧
    mod32 0xFFFFFFFB#32 ≠ mod32 (node3.cad.period + 1) := by decide
/-- A plan of node 1 with a TALK slot 0 and a MIC slot 1, and its presentation with the talk key down, or with node 1 missing. -/
def talkPlan : Plan := { version := 1, allots := [⟨1, 0, 1, .talk⟩, ⟨1, 1, 1, .mic⟩] }
def heard (key : Bool) : Presentation :=
  { period := 0, plan := talkPlan
    rows := (Vector.replicate 8 none).set 1 (some [{ sample := 7, valid := true, field := .key key }, { field := .step (some 36) }]) }
def unheard : Presentation := { heard true with rows := Vector.replicate 8 none }
/-- R147: a talker that keys, lets go and is held, and is lost; another owner's slot starts from QUIET. -/
theorem test_talk_entry :
    (({ binding := some 0 } : TalkEntry).update 2 ((heard true).view (some 0))).state = .keyed ∧
    (({ state := .keyed, owner := some 1 } : TalkEntry).update 2 ((heard false).view (some 0))).hold = some 2 ∧
    (({ state := .holding, hold := some 2, owner := some 0 } : TalkEntry).update 2 ((heard false).view (some 0))).state = .quiet ∧
    (({ state := .keyed, owner := some 1 } : TalkEntry).update 2 (unheard.view (some 0))).owner = some 1 ∧
    (({ state := .keyed, owner := some 1 } : TalkEntry).update 2 ((heard true).view (some 1))).owner = none := by decide +kernel
/-- R68: the first loss posts RETURN LOSS with the period, and a return posts the number of periods missed. -/
theorem test_presence : (withPeer.presence unheard 1).ord.events = withPeer.ord.events ∧
    ((withPeer.onSel (·.onOrigin 1 (fun x => { x with present := true }))).presence unheard 1).ord.events.map (·.kind) = [.returnLoss] ∧
    ((withPeer.onSel (·.onOrigin 1 (fun x => { x with missing := 5 }))).presence (heard true) 1).ord.events.map (·.value) = [5] := by
  decide +kernel
theorem test_witness_TickWritesReceiveBank_talk :
    (heard true).view (some 0) = some ⟨1, .talk, some { sample := 7, valid := true, field := .key true }⟩ ∧
    (heard false).view (some 0) = some ⟨1, .talk, some { sample := 7, valid := true, field := .key false }⟩ ∧
    unheard.view (some 0) = some ⟨1, .talk, none⟩ ∧
    (∃ v : SlotView, (heard true).view (some 1) = some v ∧ v.kind ≠ .talk) ∧
    ({ state := .holding, hold := some 1, owner := some 1 } : TalkEntry).hold = some (0 + 1) ∧
    ({ state := .holding, hold := some 0 } : TalkEntry).state = .holding ∧
    (1 : NodeId) ≠ node3.cfg.nodeId ∧ talkPlan.owns 1 = true ∧ unheard.rows[(1 : NodeId)] = none ∧
    (heard true).rows[(1 : NodeId)] ≠ none := by
  refine ⟨by decide +kernel, by decide +kernel, by decide +kernel, ⟨_, rfl, by decide +kernel⟩, ?_⟩
  decide +kernel
def announcingAt (n : Period) : Chip :=
  { withPeer with
    cad := { withPeer.cad with period := n }
    pln := { staged := some { plan := { version := 8 }, e := 96, effective := 96, announced := true } }
    msg := { outbox := [newEntry 1 (.claim 5) .nobody] } }
theorem test_witness_OwnBurstIsBuiltAndQueued : node3.lit .east = true ∧ (node3.portOf .east).queue.length < 16 ∧
    node3.lit .west = true ∧ (node3.portOf .west).queue.length < 16 ∧
    (announcingAt 0).cfg.nodeId = (announcingAt 0).cfg.authority ∧ (announcingAt 0).pln.announcing (announcingAt 0).cad.period = true ∧
    (announcingAt 0).cad.period.toNat % 2 = 0 ∧ (announcingAt 1).pln.announcing (announcingAt 1).cad.period = true ∧
    (announcingAt 1).cad.period.toNat % 2 = 1 ∧ (announcingAt 1).msg.outbox = [] ++ newEntry 1 (.claim 5) .nobody :: [] ∧
    (newEntry 1 (.claim 5) .nobody).ready (announcingAt 1).msg.outbox (announcingAt 1).cfg.nodeId = true ∧
    node3.msg.outbox = [] ∧ node3.pln.announcing node3.cad.period = false ∧
    ({ node3 with cfg := { node3.cfg with authority := 0 } } : Chip).cfg.nodeId ≠ 0 ∧
    (announcingAt 0).pln.staged = some { plan := { version := 8 }, e := 96, effective := 96, announced := true } ∧
    later 96 (announcingAt 0).cad.period = true ∧ node3.pln.staged = none ∧ node3.pln.repair = none := by decide
/-- Node 3 with a MIC, a MIX, a TALK and a LINE position, input 0 with a step pending for period 3, and input 1 with none. -/
def ownPositions : Chip :=
  { node3 with
    pln := { current := { version := 1, allots := [⟨3, 0, 9, .mic⟩, ⟨1, 9, 4, .mix⟩, ⟨3, 20, 1, .mix⟩, ⟨3, 21, 1, .talk⟩, ⟨3, 30, 1, .line⟩] } }
    pre := node3.pre.onInput 0 (fun x => { x with stamp := some 7, pending := some (9, 3) }) }
theorem test_banks : node3.banksOk := by
  intro h f p _
  fin_cases h <;> simp [node3, clearedBank]
theorem test_own_banks : ownPositions.banksOk := test_banks
theorem test_witness_OwnBurstIsBuiltAndQueued_slots :
    (∀ x ∈ [(0, SlotKind.mic), (8, .mic), (9, .mix), (10, .talk), (11, .line)],
      ((ownPositions.planAt 0).ownKinds ownPositions.cfg.nodeId)[x.1]? = some x.2) ∧
    (((ownPositions.tap.banks[ownPositions.tap.frozen]).frames[(0 : Fin 32)])[(10 : Fin 96)]).written = false ∧
    ownPositions.cfg.preampCount ≤ (8 : Fin 96).val ∧ (0 : InputId).val < ownPositions.cfg.preampCount ∧
    ownPositions.pre.inputs[(0 : InputId)].pending = some (9, 3) ∧ atOrBefore 3 3 = true ∧ atOrBefore 3 2 = false ∧
    ownPositions.pre.inputs[(1 : InputId)].pending = none ∧
    ownPositions.pln.current.allots = [⟨3, 0, 9, .mic⟩, ⟨1, 9, 4, .mix⟩] ++ ⟨3, 20, 1, .mix⟩ ::
      [⟨3, 21, 1, .talk⟩, ⟨3, 30, 1, .line⟩] := by decide +kernel
/-- R4, R158: a position that is not written departs not valid, and a MIC position carries its input's step all the same. -/
theorem test_own_slots : (ownPositions.ownSlots 3)[0]? = some { field := .step (some 9) } ∧
    (ownPositions.ownSlots 2)[0]? = some { field := .step (some 7) } ∧ (ownPositions.ownSlots 2)[8]? = some { field := .step none } ∧
    (ownPositions.ownSlots 2)[10]? = some { field := .key false } := by decide +kernel
/-- R13: outside an announcement the fragment carries the current plan, however long ago it was adopted, by its own number. -/
theorem test_current_fragment :
    (({ current := { version := 8 }, prior := some { version := 7 }, nextCurrent := 5 } : PlanStore).supply 0x80000001).1.version = 8 ∧
    (({ current := { version := 8 }, prior := some { version := 7 }, nextCurrent := 5 } : PlanStore).supply 0x80000001).2.nextCurrent = 0 := by
  decide +kernel
def deferredAt (p : Nat) : Chip :=
  runningCell 14 .boundary (node3.onSel (fun x => { x with deferred := true, pending := some p }))
/-- The same with the period seven before the present one next to present. -/
def presentingAt (p : Nat) : Chip := (deferredAt p).onSel (fun x => { x with next := 0 - 7 })
theorem test_witness_DelayChangeTakesEffect : (deferredAt 12).sel.deferred = true ∧ (deferredAt 12).sel.pending = some 12 ∧
    12 ≠ (deferredAt 12).sel.delay ∧
    (∀ p ∈ [2, 7, 12], (presentingAt p).sel.deferred = true ∧ (presentingAt p).sel.pending = some p ∧
      p ≠ (presentingAt p).sel.delay ∧ (presentingAt p).sel.next = 0 - 7) ∧
    later ((presentingAt 2).cad.period - BitVec.ofNat 32 2) (0 - 7) = true ∧
    (presentingAt 7).cad.period - BitVec.ofNat 32 7 = 0 - 7 ∧
    earlier ((presentingAt 12).cad.period - BitVec.ofNat 32 12) (0 - 7) = true ∧ (deferredAt 6).sel.pending = some 6 ∧ 6 = (deferredAt 6).sel.delay ∧
    ((deferredAt 12).cellAt 0).state = .running ∧
    ((deferredAt 12).cellAt 0).order.map (·.waits) = some .boundary ∧
    (∀ st ∈ [EntryState.held, .presented], ({ state := st, period := 0 } : AlignEntry).state = st) ∧
    atOrBefore 0 0 = true ∧ atOrBefore 1 0 = false := by decide
def assembling : Assembly := ⟨8, 0xFFFFFFA0#32, Vector.replicate 6 false, Vector.replicate 6 (Vector.replicate 12 0)⟩
theorem test_witness_TickExpiriesEndTheirItem :
    ({ node3 with tap := { node3.tap with strobe := some 64 } } : Chip).tap.strobe = some 64 ∧
    ((64 : Nat) : Int) ≤ 64 + node3.cad.tickMove ∧
    ({ node3 with pln := { expiryDue := true } } : Chip).pln.expiryDue = true ∧ node3.pln.expiryDue = false ∧
    ({ node3 with ret := { talk := Vector.replicate 4 { state := .holding, hold := some 0 } } } : Chip).ret.talk[(3 : Fin 4)].state =
      .holding ∧
    ({ node3 with ret := { talk := Vector.replicate 4 { state := .holding, hold := some 0 } } } : Chip).ret.talk[(3 : Fin 4)].hold =
      some 0 := by decide
def staging (a : Bool) : Chip :=
  runningCell 13 .adoption
    { node3 with pln := { staged := some { plan := { version := 8 }, e := 0, effective := 0, announced := a } } }
theorem test_witness_AdoptionReplacesPlan : (∀ a : Bool, ∃ st : StagedPlan, (staging a).pln.staged = some st ∧ st.announced = a ∧
      atOrBefore st.effective (staging a).cad.period = true) ∧
    ((staging true).cellAt 0).state = .running ∧ ((staging true).cellAt 0).order.map (·.waits) = some .adoption ∧
    ({ node3 with pln := { repair := some ⟨{ version := 9 }, 0⟩ } } : Chip).pln.staged = none ∧
    atOrBefore 0 node3.cad.period = true := by
  refine ⟨fun a => ⟨_, rfl, rfl, rfl⟩, by decide⟩
theorem test_witness_LightChangesReceiveState : node3.sys.mode = .run ∧ (node3.portOf .east).rx = .dark ∧
    ((node3.onPort .west (fun x => { x with rx := .up, light := true })).portOf .west).rx = .up ∧
    ((node3.onPort .west (fun x => { x with rx := .acquire, light := true })).portOf .west).rx = .acquire ∧
    ((node3.onPort .west (fun x => { x with rx := .quarantine })).portOf .west).rx = .quarantine ∧
    litReading.sys.mode = .loading ∧ litReading.sys.load = .reading ∧
    loadCheck goodBytes emptyImage litReading.windowBase = none ∧ (litReading.portOf .east).rx = .dark ∧
    (litReading.portOf .east).light = true ∧ (litReading.portOf .west).rx = .dark ∧
    (litReading.portOf .west).light = false := by decide +kernel
def inRx (r : RxState) (n : Nat) : Chip := node3.onPort .east (fun x => { x with rx := r, light := true, goodRun := n })
theorem test_witness_UnservedBurstsOnlyCount : ((inRx .acquire 14).portOf .east).goodRun < 15 ∧
    ((inRx .acquire 15).portOf .east).goodRun = 15 ∧ ((inRx .acquire 15).portOf .east).rx = .acquire ∧
    ((inRx .up 0).portOf .east).rx = .up ∧ ((inRx .dark 0).portOf .east).rx = .dark ∧
    ((inRx .quarantine 0).portOf .east).rx = .quarantine ∧ goodCheck burst1 (checkWord burst1) = true ∧
    goodCheck burst1 (~~~ checkWord burst1) = false :=
  ⟨by decide, by decide, by decide, by decide, by decide, by decide, good_own _, bad_inverted _⟩
theorem test_witness_OwnIdBurstsAreNotCopies : (inRx .up 0).hearsGood .east (burst3 77) (checkWord (burst3 77)) ∧
    (burst3 77).origin = (inRx .up 0).cfg.nodeId ∧ (burst3 77).serial = (inRx .up 0).cfg.serial ∧
    (inRx .up 0).hearsGood .east (burst3 78) (checkWord (burst3 78)) ∧ (burst3 78).serial ≠ (inRx .up 0).cfg.serial ∧
    quiet96 (inRx .up 0).rng.idClash (inRx .up 0).cad.period = true ∧ quiet96 (some 0) 0 = false :=
  ⟨⟨by decide, good_own _⟩, by decide, by decide, ⟨by decide, good_own _⟩, by decide, by decide, by decide⟩
def timing3 : Chip := node3.onCad (fun x => { x with role := .timing, state := .locked, ref := some 3 })
/-- A timing node with the WCK source in each state, with a step armed or not, and before or after the edge that follows an election. -/
def edgeAt (st : CadenceState) (armed back : Bool) (n : Nat) : Chip :=
  timing3.onCad (fun x => { x with state := st, stepArmed := armed, wckReturn := back, lockCount := n })
theorem test_witness_WckEdgeIsJudged :
    ∀ st ∈ [CadenceState.locked, .locking, .holdover, .stepPending, .free], ∀ armed back : Bool, ∀ n ∈ [46, 47],
      (edgeAt st armed back n).sys.mode = .run ∧ (edgeAt st armed back n).cad.role = .timing ∧
      (edgeAt st armed back n).cfg.source = .wck ∧ (edgeAt st armed back n).lossDue = false ∧
      (edgeAt st armed back n).cad.state = st ∧ (edgeAt st armed back n).cad.stepArmed = armed ∧
      (edgeAt st armed back n).cad.wckReturn = back ∧ (edgeAt st armed back n).cad.lockCount = n := by decide
/-- R54: an edge just outside pull-in takes HOLDOVER to STEP_PENDING; R45: one at its bound slews by one age unit. -/
theorem test_edge_bounds : ((edgeAt .holdover false false 0).wckEdge 9).cad.state = .stepPending ∧
    ((edgeAt .holdover false false 0).wckEdge (-8)).cad.state = .locked ∧
    ((edgeAt .holdover false false 0).wckEdge (-8)).cad.tickMove = -1 := by decide
theorem test_witness_PortEventsChangeState_sent :
    ((node3.onPort .east (fun x => x.enqueue ⟨burst1, true⟩)).portOf .east).queue = [⟨burst1, true⟩] ∧
    ((node3.onPort .east (fun x => x.enqueue ⟨burst1, true⟩)).portOf .east).leaving = some .normal := by decide
theorem test_witness_PortEventsChangeState_expiries :
    ((node3.onPort .east (fun x => { x with rx := .acquire, acquireTimer := some 0 })).portOf .east).acquireTimer = some 0 ∧
    ((node3.onPort .east (fun x => { x with rx := .up, windowTicks := 48, windowBad := 8 })).portOf .east).windowBad = 8 ∧
    ((node3.onPort .east (fun x => { x with rx := .up, windowTicks := 48, windowBad := 7 })).portOf .east).windowBad < 8 ∧
    (∀ l : Bool, ((node3.onPort .east (fun x =>
      { x with rx := .quarantine, quarTimer := some 0, light := l })).portOf .east).light = l) ∧
    ((node3.onPort .east (fun x => { x with txMode := .silent })).portOf .east).drill = 0 := by decide
theorem test_witness_CadenceTimersChangeState :
    ({ node3 with rng := { node3.rng with joinQuiet := 192 } } : Chip).rng.joinQuiet = 192 ∧ node3.cad.openToSelf = false ∧
    (timing3.onCad (fun x => { x with silence := 24 })).countsSilence = true ∧
    (timing3.onCad (fun x => { x with silence := 24 })).cad.state = .locked ∧
    (timing3.onCad (fun x => { x with silence := 24, state := .locking })).countsSilence = true ∧
    (timing3.onCad (fun x => { x with silence := 24, state := .locking })).cad.state = .locking ∧
    (node3.onCad (fun x => { x with holdover := some 0, state := .holdover })).cad.holdover = some 0 ∧
    (node3.onCad (fun x => { x with holdover := some 0, state := .stepPending })).cad.holdover = some 0 := by decide
/-- Node 3 of rank 2 with node 1 of rank `r` a member, and its election open or not. -/
def electing (st : CadenceState) (open' : Bool) (r : Fin 16) (src : RefSource) : Chip :=
  { node3 with
    cfg := { node3.cfg with source := src }
    cad := { state := st, openToSelf := open', rank := ((Vector.replicate 8 none).set 1 (some r)).set 3 (some 2) }
    sel := node3.sel.onOrigin 1 (fun x => { x with member := true }) }
theorem test_witness_CadenceTimersChangeState_election :
    (∀ st ∈ [CadenceState.free, .locking, .locked, .holdover, .stepPending], ∀ src ∈ [RefSource.wck, .internal],
      (electing st true 2 src).elected = some 1 ∧ (1 : NodeId) ≠ (electing st true 2 src).cfg.nodeId ∧
      (electing st true 3 src).elected = some (electing st true 3 src).cfg.nodeId ∧
      (electing st true 3 src).cfg.source = src ∧ (electing st true 3 src).cad.state = st ∧
      (electing st true 3 src).cad.ref = none ∧ (electing st false 15 src).elected = none ∧
      ((electing st false 15 src).onCad (fun x => { x with ref := some 1 })).elected ≠ some 1) ∧
    (electing .free false 15 .wck).elected = (electing .free false 15 .wck).cad.ref := by decide
theorem test_candidate : (electing .free true 2 .wck).candidate 1 2 ∧ (electing .free true 2 .wck).candidate 3 2 :=
  ⟨⟨by decide, by decide, fun h => absurd h (by decide), fun _ => by decide⟩,
   ⟨by decide, by decide, fun _ => by decide, fun h => absurd rfl h⟩⟩
theorem test_witness_RosterLeaveTearsDown : (1 : NodeId) ≠ node3.cfg.nodeId ∧
    ((node3.onSel (·.onOrigin 1 (fun x => { x with member := true }))).sel.origins[(1 : NodeId)]).member = true ∧
    96 ≤ ((node3.onSel (·.onOrigin 1 (fun x => { x with member := true }))).sel.origins[(1 : NodeId)]).silence ∧
    node3.sys.mode = .run ∧ node3.ord.events.length < 32 := by decide
theorem test_witness_SilenceEndsClearHopAndRing : 96 ≤ ((node3.sel.paths[(1 : NodeId)]).get .east).silence ∧
    96 ≤ (withPeer.sel.lap.get .west).silence ∧ withPeer.ringOf ≠ withPeer.sel.ring := by decide
def outEntry (dest : NodeId) (st : OutState) (n : Nat) (o : Originator) : OutEntry :=
  { dest := dest, body := .gain 5 30, state := st, attempts := n, orig := o }
/-- Node 1 silent for 96 ticks, with a message of cell 2 to it in the outbox. -/
def departing : Chip :=
  (node3.onSel (·.onOrigin 1 (fun x => { x with member := true }))).withOutbox [outEntry 1 .inFlight 1 (.cell 2 5)]
theorem test_witness_RosterLeaveTearsDown_cell : departing.leaveDue 1 = true ∧
    outEntry 1 .inFlight 1 (.cell 2 5) ∈ departing.msg.outbox ∧ (outEntry 1 .inFlight 1 (.cell 2 5)).dest = 1 ∧
    (outEntry 1 .inFlight 1 (.cell 2 5)).orig = .cell 2 5 ∧
    (∀ r : RecordId, (outEntry 1 .inFlight 1 (.cell 2 5)).orig ≠ .cell 3 r) := by
  refine ⟨by decide, by decide, rfl, rfl, fun r h => ?_⟩
  simp [outEntry] at h
theorem test_witness_OutboxTimersEndOrResend_deadline :
    (withPeer.withOutbox [outEntry 1 .inFlight 3 .nobody]).msg.outbox[(0 : Fin 16).val]? =
      some (outEntry 1 .inFlight 3 .nobody) ∧
    (withPeer.withOutbox [outEntry 1 .inFlight 3 (.cell 0 5)]).msg.outbox[(0 : Fin 16).val]? =
      some (outEntry 1 .inFlight 3 (.cell 0 5)) ∧
    (outEntry 1 .inFlight 2 .nobody).attempts < 3 ∧ (outEntry 1 .inFlight 2 .nobody).dest ≠ withPeer.cfg.nodeId := by decide
def ownClaim : Chip :=
  { node3 with pre := node3.pre.onInput 5 (fun x => { x with claimant := some 3 })
               msg := { outbox := [outEntry 3 .backoff 0 (.cell 0 5)] } }
theorem test_witness_OutboxTimersEndOrResend_record : (∀ cl ∈ [ClaimState.none, .asking], ∀ i ∈ [(5 : InputId), 6],
      let c := (withPeer.withOutbox [outEntry 1 .inFlight 3 (.record 5)]).onRecord 5 (fun x =>
        { x with claim := cl, slotInput := some (1, i) })
      c.msg.outbox[(0 : Fin 16).val]? = some (outEntry 1 .inFlight 3 (.record 5)) ∧ (c.recordAt 5).claim = cl ∧
      (c.recordAt 5).slotInput = some (1, i)) ∧
    (outEntry 1 .inFlight 3 (.record 5)).body.input = 5 := by decide
theorem test_witness_OutboxTimersEndOrResend_backoff :
    ownClaim.msg.outbox[(0 : Fin 16).val]? = some (outEntry 3 .backoff 0 (.cell 0 5)) ∧
    (outEntry 3 .backoff 0 (.cell 0 5)).dest = ownClaim.cfg.nodeId ∧ (5 : InputId).val < ownClaim.cfg.preampCount ∧
    ownClaim.pre.inputs[(5 : InputId)].claimant = some ownClaim.cfg.nodeId ∧ ownClaim.pre.queue.length < 8 ∧
    (outEntry 1 .backoff 0 .nobody).dest ≠ ownClaim.cfg.nodeId := by decide
/-- This node's own GAIN at input 5, which it holds, with the preamp queue full. -/
def ownBusy (n : Nat) : Chip :=
  { ownClaim with
    pre := { ownClaim.pre with queue := (List.finRange 8).map (fun k => ⟨Fin.ofNat 64 (8 + k.val), 30, .loc⟩) }
    msg := { outbox := [{ outEntry 3 .backoff 0 (.cell 0 5) with busy := n }] } }
theorem test_witness_OutboxTimersEndOrResend_busy : ∀ n ∈ [6, 7],
    (ownBusy n).msg.outbox[(0 : Fin 16).val]? = some { outEntry 3 .backoff 0 (.cell 0 5) with busy := n } ∧
    (ownBusy n).pre.queued 5 = false ∧ 8 ≤ (ownBusy n).pre.queue.length ∧
    (ownBusy n).pre.inputs[(5 : InputId)].claimant = some (ownBusy n).cfg.nodeId ∧
    (5 : InputId).val < (ownBusy n).cfg.preampCount := by decide
def transaction (n timer : Nat) : Transaction := ⟨5, 30, n, timer⟩
def portAt (p : PrePort) (t : Transaction) : Chip := { node3 with pre := { port := p, trans := some t } }
def stepping (u : PreampUnit) : Chip := withArgs 7 61 0 0 0 { node3 with pre := u }
def fullQueue : PreampUnit := { queue := (List.finRange 8).map (fun k => ⟨Fin.ofNat 64 (8 + k.val), 30, .loc⟩) }
/-- Two requests, and a sweep mark on input 9 alone. -/
def sweeping (marked : Bool) : PreampUnit :=
  ({ queue := [⟨5, 30, .loc⟩, ⟨6, 30, .loc⟩] } : PreampUnit).onInput 9 (fun x => { x with sweep := marked })
theorem test_witness_TransactionSendsOldestEntry : (sweeping false).port = .idle ∧
    (∀ m : Bool, (sweeping m).queue.find? (fun x => (sweeping m).inputs[x.input].state ≠ .settling) = some ⟨5, 30, .loc⟩) ∧
    (∀ i : InputId, (sweeping false).inputs[i].sweep = false) ∧ (∀ i : InputId, (sweeping true).inputs[i].sweep = true ↔ i = 9) ∧
    ((sweeping true).queue.eraseP (fun x => x.input = 5)).length < 4 ∧
    (∀ x ∈ (sweeping true).queue.eraseP (fun x => x.input = 5), x.input ≠ 9) ∧
    4 ≤ (fullQueue.queue.eraseP (fun x => x.input = 8)).length ∧
    (portAt .sending (transaction 1 0)).pre.port = .sending ∧ (portAt .retry (transaction 1 0)).pre.port = .retry := by
  decide +kernel
theorem test_witness_PreampAnswerEndsAttempt_failed : (transaction 1 0).timer = 0 ∧ (transaction 1 0).attempt = 1 ∧
    (transaction 2 0).attempt = 2 ∧ (portAt .awaiting (transaction 2 0)).pre.trans = some (transaction 2 0) ∧
    goodCharacter 30 true true = false ∧ (31 : Byte).toNat ≠ (transaction 1 0).step.val := by decide
theorem test_witness_PreampAnswerEndsAttempt_echo : (portAt .awaiting (transaction 1 8)).pre.port = .awaiting ∧
    (portAt .awaiting (transaction 1 8)).pre.trans = some (transaction 1 8) ∧ goodCharacter 30 false true = true ∧
    (30 : Byte).toNat = (transaction 1 8).step.val ∧ (portAt .retry (transaction 1 8)).pre.port ≠ .awaiting ∧
    (node3.pre.onInput 5 (fun x => { x with pending := some (30, 0) })).inputs[(5 : InputId)].pending = some (30, 0) ∧
    atOrBefore 0 node3.cad.period = true := by decide
theorem test_witness_StageAnswersClaimReleaseAndGain : node3.cfg.preampCount ≤ (8 : InputId).val ∧ ownClaim.existing 5 ∧
    ownClaim.pre.inputs[(5 : InputId)].claimant = some 3 ∧ (3 : NodeId) ≠ 1 ∧ ownClaim.pre.queue.length < 8 ∧
    node3.existing 7 ∧ node3.pre.inputs[(7 : InputId)].claimant = none ∧
    (stepping fullQueue).pre.queued 5 = false ∧ 8 ≤ (stepping fullQueue).pre.queue.length :=
  ⟨by decide, by show (5 : InputId).val < 8; decide, by decide, by decide, by decide, by show (7 : InputId).val < 8; decide,
   by decide, by decide, by decide⟩
theorem test_witness_MemoryWriteStoresEnabledLanes : Memory.wf (at0 node3).mem = true ∧
    (at0 node3).chip.area (4000 : WordAddr).toNat = .plain ∧ (at0 node3).chip.area (0 : WordAddr).toNat = .report 0 ∧
    (at0 node3).chip.area (511 : WordAddr).toNat = .report 511 ∧ (at0 node3).chip.area (536 : WordAddr).toNat = .code 3 ∧
    (at0 node3).chip.area (543 : WordAddr).toNat = .argument 3 6 ∧ (0b0111 : BitVec 4) ≠ 15 ∧ codeUnnamed 19 = true := by decide
def tapped (mark : Bool) : Chip :=
  { node3 with tap := { node3.tap with
      taps := [{ kind := .send, base := 4000, chans := 2, first := 94, just := .left, lateMark := mark }] } }
theorem test_witness_SendTapWriteCapturedOrLate : (tapped false).area (4015 : WordAddr).toNat = .sendTap 0 ⟨1, 3, 1⟩ ∧
    (1 : Fin 2) ≠ (tapped false).tap.frozen ∧ 94 + 1 < 96 ∧ (tapped false).area (4000 : WordAddr).toNat = .sendTap 0 ⟨0, 0, 0⟩ ∧
    (0 : Fin 2) = (tapped false).tap.frozen ∧ (tapped true).area (4000 : WordAddr).toNat = .sendTap 0 ⟨0, 0, 0⟩ ∧
    (tapped true).cfg.blockLen ≤ 32 := by decide
/-- R195: a LEFT word carries the sample in bits 31 to 8, the key in bit 0 and the overload mark in bit 1; a RIGHT word neither mark. -/
theorem test_send_word : captured .left 0x81234503 = { sample := 0x812345, key := true, overload := true, written := true } ∧
    captured .right 0x81234503 = { sample := 0x234503, key := false, overload := false, written := true } := by decide
theorem test_witness_HostReadsAnswer : (∃ e rest, ({ State.reset.chip with sys := { mode := .halted } } : Chip).ord.events = e :: rest) ∧
    node3.sys.mode ≠ .loading ∧ node3.ord.events = [] ∧ node3.ord.overflow = false ∧
    State.reset.chip.sys.mode = .loading := by
  refine ⟨⟨_, _, rfl⟩, by decide⟩
/-- A part with something of each kind to report: a staged, a prior and a draft entry, a pending P, and reports of node 1. -/
def reporting : Chip :=
  { withPeer with
    pln := { withPeer.pln with
      current := { version := 9, allots := [⟨7, 255, 1, .line⟩] }, prior := some { version := 8, allots := [] }
      staged := some { plan := { version := 10, allots := [⟨3, 0, 96, .talk⟩] }, e := 500, effective := 501, announced := true }
      draft := withPeer.pln.draft.set 15 (some ⟨6, 0, 256, .mix⟩) }
    sel := { ((withPeer.sel.onOrigin 1 (fun x =>
        { x with cadence := some burst1.cadence, ports := some burst1.ports })).onPath 1 .west (fun x =>
          { x with lastAge := some (-5), maxAge := some 330, hop := some 2 })) with
      pending := some 16, delay := 16, advice := 16, lap := ⟨{ silence := 96, lastAge := some 4, maxAge := some 4 }, {}⟩ }
    rng := { withPeer.rng with port := ⟨{ acquireTimer := some 4800 }, { rx := .quarantine, quarTimer := some 4800 }⟩ }
    tap := { (tapped false).tap with shown := ⟨#[none, some 9], rfl⟩ } }
theorem test_witness_HostReadsAnswer_report : reporting.sys.mode ≠ .loading ∧ reporting.pln.prior.isSome = true ∧
    node3.pln.prior = none ∧ reporting.pln.staged.isSome = true ∧ node3.pln.staged = none ∧
    reporting.sel.pending = some 16 ∧ node3.sel.pending = none ∧ reporting.sel.delay < 32 ∧ reporting.sel.advice < 32 ∧
    reporting.tap.j < 8 ∧ reporting.cfg.blockLen < 64 ∧ reporting.cfg.preampCount < 128 ∧ reporting.ord.events.length < 64 ∧
    reporting.tap.taps[(0 : Fin 12).val]? = some { kind := .send, base := 4000, chans := 2, first := 94, just := .left } ∧
    reporting.tap.taps[(1 : Fin 12).val]? = none ∧ (reporting.portOf .east).acquireTimer = some 4800 ∧
    (reporting.portOf .west).acquireTimer = none ∧ (reporting.portOf .west).quarTimer = some 4800 ∧
    (reporting.portOf .east).goodRun < 32 ∧ (reporting.portOf .east).windowTicks < 64 ∧ (1 : NodeId) ≠ reporting.cfg.nodeId ∧
    (reporting.sel.origins[(1 : NodeId)]).cadence = some burst1.cadence ∧
    (reporting.sel.origins[(1 : NodeId)]).ports = some burst1.ports ∧ (reporting.sel.origins[(2 : NodeId)]).cadence = none ∧
    (reporting.sel.origins[(2 : NodeId)]).ports = none ∧ ((reporting.sel.paths[(1 : NodeId)]).get .west).hop = some 2 ∧
    ((reporting.sel.paths[(1 : NodeId)]).get .east).hop = none ∧ (reporting.sel.lap.get .east).silence < 256 := by
  decide +kernel
/-- R198, R199: the words of the layouts, written out from their bit numbers. -/
theorem test_report_words : reporting.reportWord 8 = 0x04024210 ∧ reporting.reportWord 6 = 0x0003000A ∧
    reporting.reportWord 224 = 0x807C01FF ∧ reporting.reportWord 271 = 0x80650000 ∧ reporting.reportWord 121 = 0xFFFFFFFB := by
  decide +kernel
/-- A RETURN tap on records 7 to 9, half 1 showing block 9, whose bank holds one output for record 8 in frame 1, the rest "pass". -/
def returnTapped (j : Justification) : Chip :=
  { node3 with
    tap := { node3.tap with taps := [{ kind := .ret, base := 5000, chans := 3, first := 7, just := j }], shown := ⟨#[none, some 9], rfl⟩ }
    ret := { node3.ret with
      banks := upd node3.ret.banks 1 (fun bank => upd bank 1 (fun frame =>
        frame.set (8 : RecordId) (.output 0x812345 ⟨true, false, true, false, 5⟩))) } }
theorem test_witness_HostReadsAnswer_tap : ∀ j ∈ [Justification.left, .right],
    (returnTapped j).area (5000 + (1 * (returnTapped j).cfg.blockLen + 1) * 3 + 1) = .returnTap 0 ⟨1, 1, 1⟩ ∧
    (returnTapped j).area 5000 = .returnTap 0 ⟨0, 0, 0⟩ ∧ (returnTapped j).cfg.blockLen ≤ 32 ∧
    (returnTapped j).tap.shown[(0 : Fin 2)] = none ∧ (returnTapped j).tap.shown[(1 : Fin 2)] = some 9 ∧ (8 : RecordId).val = 7 + 1 ∧
    (((returnTapped j).ret.banks[Fin.ofNat 8 9])[(1 : Fin 32)])[(8 : RecordId)] = .output 0x812345 ⟨true, false, true, false, 5⟩ ∧
    (((returnTapped j).ret.banks[Fin.ofNat 8 9])[(1 : Fin 32)])[(7 : RecordId)] = .pass ∧
    (returnTapped j).area 4000 = .plain := by decide +kernel
/-- R195: a LEFT word carries sample and tag, a RIGHT word the sample with its sign. -/
theorem test_return_word :
    (at0 (returnTapped .left)).hostRead (5000 + (1 * (returnTapped .left).cfg.blockLen + 1) * 3 + 1) = 0x81234556 ∧
    (at0 (returnTapped .right)).hostRead (5000 + (1 * (returnTapped .right).cfg.blockLen + 1) * 3 + 1) = 0xFF812345 := by
  decide +kernel
theorem test_takes : node3.takes 0 := by constructor <;> decide
theorem test_witness_CodeZeroIdlesUnknownFails : node3.takes 0 ∧ node3.sys.mode ≠ .loading ∧ codeUnnamed 19 = true ∧
    codeUnnamed 255 = true ∧ ({ node3 with sys := { mode := .halted } } : Chip).sys.mode = .halted ∧
    (node3.cellAt 0).state ≠ .running ∧ ((runningCell 13 .adoption node3).cellAt 0).state = .running ∧
    (runningCell 13 .adoption node3).sys.mode ≠ .loading ∧ State.reset.chip.sys.mode = .loading :=
  ⟨test_takes, by decide, by decide, by decide, by decide, by decide, by decide, by decide, by decide⟩
theorem test_witness_OrdersRefusedByModeAndCell : ((1, .trim 0 0 0) : Byte × Instr) ∈ orderWrites 0 0 0 ∧
    State.reset.chip.sys.mode = .loading ∧ ((runningCell 13 .adoption node3).cellAt 0).state = .running ∧
    ({ node3 with sys := { mode := .halted } } : Chip).sys.mode = .halted := by
  refine ⟨?_, by decide⟩
  simp [orderWrites]
theorem test_witness_TrimAndLossSetRecord_trim : (withArgs 127 0 0 0 0 node3).takes 0 ∧
    ((withArgs 127 0 0 0 0 node3).cellAt 0).args[0].toNat = (127 : RecordId).val ∧
    127 < ((withArgs 128 0 0 0 0 node3).cellAt 0).args[0].toNat :=
  ⟨by constructor <;> decide, by decide, by decide⟩
theorem test_witness_TrimAndLossSetRecord_loss : (withArgs 5 2 0 0 0 node3).takes 0 ∧
    ((withArgs 5 2 0 0 0 node3).cellAt 0).args[0].toNat = (5 : RecordId).val ∧
    ((withArgs 5 2 0 0 0 node3).cellAt 0).args[1].toNat = policyCode .pass ∧ (withArgs 5 3 0 0 0 node3).takes 0 ∧
    ((withArgs 5 3 0 0 0 node3).cellAt 0).args[0].toNat = (5 : RecordId).val ∧
    2 < ((withArgs 5 3 0 0 0 node3).cellAt 0).args[1].toNat :=
  ⟨by constructor <;> decide, by decide, by decide, by constructor <;> decide, by decide, by decide⟩
/-- BIND of the HELD record 5 of node 1's input 5, alone or with record 6 on the same input. -/
def rebinding : Chip := withArgs 5 255 0 0 0 holding5
def rebindingShared : Chip := rebinding.onRecord 6 (fun x => { x with claim := .asking, slotInput := some (1, 5) })
theorem test_witness_BindRestartsRecord : (withArgs 5 256 0 0 0 node3).takes 0 ∧
    ((withArgs 5 256 0 0 0 node3).cellAt 0).args[0].toNat = (5 : RecordId).val ∧
    ((withArgs 5 256 0 0 0 node3).cellAt 0).args[1].toNat = bindingCode none ∧
    ((withArgs 5 256 0 0 0 node3).recordAt 5).binding = none ∧ (withArgs 5 255 0 0 0 node3).takes 0 ∧
    ((withArgs 5 255 0 0 0 node3).cellAt 0).args[0].toNat = (5 : RecordId).val ∧
    ((withArgs 5 255 0 0 0 node3).cellAt 0).args[1].toNat = bindingCode (some 255) ∧
    ((withArgs 5 255 0 0 0 node3).recordAt 5).binding ≠ some 255 ∧
    ((withArgs 5 255 0 0 0 node3).recordAt 5).claim ≠ .held :=
  ⟨by constructor <;> decide, by decide, by decide, by decide, by constructor <;> decide, by decide, by decide, by decide,
   by decide⟩
theorem test_witness_BindRestartsRecord_held : rebinding.takes 0 ∧ (rebinding.cellAt 0).args[0].toNat = (5 : RecordId).val ∧
    (rebinding.cellAt 0).args[1].toNat = bindingCode (some 255) ∧ (rebinding.recordAt 5).binding ≠ some 255 ∧
    (rebinding.recordAt 5).claim = .held ∧ (rebinding.recordAt 5).slotInput = some (1, 5) ∧ rebinding.shared 5 1 5 = false ∧
    rebinding.appends 1 ∧ rebindingShared.takes 0 ∧ (rebindingShared.recordAt 5).claim = .held ∧
    (rebindingShared.recordAt 5).slotInput = some (1, 5) ∧ rebindingShared.shared 5 1 5 = true ∧
    127 < ((withArgs 128 0 0 0 0 node3).cellAt 0).args[0].toNat ∧
    ((withArgs 127 257 0 0 0 node3).cellAt 0).args[0].toNat ≤ 127 ∧
    256 < ((withArgs 127 257 0 0 0 node3).cellAt 0).args[1].toNat :=
  ⟨by constructor <;> decide, by decide, by decide, by decide, by decide, by decide, by decide +kernel,
   by refine ⟨?_, ?_, ?_⟩ <;> decide, by constructor <;> decide, by decide +kernel, by decide +kernel, by decide +kernel, by decide,
   by decide, by decide⟩
theorem test_witness_TalkOrdersSetTalkback_talk : (withArgs 5 15 0 0 0 node3).takes 0 ∧
    ((withArgs 5 15 0 0 0 node3).cellAt 0).args[0].toNat = (5 : RecordId).val := ⟨by constructor <;> decide, by decide⟩
theorem test_witness_TalkOrdersSetTalkback_talkbind : (withArgs 3 80 0 0 0 node3).takes 0 ∧
    ((withArgs 3 80 0 0 0 node3).cellAt 0).args[0].toNat = (3 : Fin 4).val ∧
    ((withArgs 3 80 0 0 0 node3).cellAt 0).args[1].toNat = bindingCode (some 80) ∧
    (withArgs 3 80 0 0 0 node3).ret.talk[(3 : Fin 4)].binding ≠ some 80 ∧ (withArgs 3 256 0 0 0 node3).takes 0 ∧
    ((withArgs 3 256 0 0 0 node3).cellAt 0).args[1].toNat = bindingCode none ∧
    (withArgs 3 256 0 0 0 node3).ret.talk[(3 : Fin 4)].binding = none ∧ (withArgs 4 80 0 0 0 node3).takes 0 ∧
    3 < ((withArgs 4 80 0 0 0 node3).cellAt 0).args[0].toNat :=
  ⟨by constructor <;> decide, by decide, by decide, by decide, by constructor <;> decide, by decide, by decide,
   by constructor <;> decide, by decide⟩
theorem test_appends : withPeer.appends 1 := by refine ⟨?_, ?_, ?_⟩ <;> decide
/-- WANT of step 60 at a record HELD on input 5 of node `o`; node 3's own input 5 is held by node 3. -/
def wanting (o : NodeId) : Chip :=
  withArgs 5 60 0 0 0
    { ownClaim with ret := (holding5.onRecord 5 (fun x => { x with slotInput := some (o, 5) })).ret, msg := {}, sel := withPeer.sel }
def wantingFull : Chip := (wanting 1).withOutbox (List.replicate 16 (newEntry 2 (.claim 5) .nobody))
theorem test_witness_WantSetsStepAndSendsGain : (withArgs 5 63 0 0 0 node3).takes 0 ∧ ((withArgs 5 63 0 0 0 node3).recordAt 5).claim ≠ .held ∧
    ((withArgs 5 63 0 0 0 holding5).recordAt 5).claim = .held ∧ ((withArgs 5 63 0 0 0 holding5).cellAt 0).args[1].toNat = 63 ∧
    (∀ o : NodeId, (wanting o).takes 0) ∧ ((wanting 1).cellAt 0).args[0].toNat = (5 : RecordId).val ∧
    ((wanting 1).recordAt 5).claim = .held ∧ (∀ o : NodeId, ((wanting o).recordAt 5).slotInput = some (o, 5)) ∧
    wantOf ((wanting 1).cellAt 0).args[1].toNat = some 60 ∧ (wanting 1).appends 1 ∧
    (2 : NodeId) ≠ (wanting 2).cfg.nodeId ∧ (wanting 2).isMember 2 = false ∧ wantingFull.isMember 1 = true ∧
    16 ≤ wantingFull.msg.outbox.length ∧ 3 = (wanting 3).cfg.nodeId ∧ (wanting 3).existing 5 ∧
    (wanting 3).pre.inputs[(5 : InputId)].claimant = some 3 ∧ (wanting 3).pre.queued 5 = false ∧
    (wanting 3).pre.queue.length < 8 ∧ 127 < ((withArgs 128 0 0 0 0 node3).cellAt 0).args[0].toNat :=
  ⟨by constructor <;> decide, by decide, by decide, by decide, fun o => ⟨by rfl, by revert o; decide⟩, by decide, by decide,
   fun o => by revert o; decide, by decide, by refine ⟨?_, ?_, ?_⟩ <;> decide, by decide, by decide, by decide, by decide, by decide,
   by show (5 : InputId).val < 8; decide, by decide, by decide, by decide, by decide⟩
def denied5 : Chip := withArgs 5 1 0 0 0 (withPeer.onRecord 5 (fun x => { x with claim := .denied, slotInput := some (1, 5) }))
theorem test_witness_SeekSetsFlagAndClaims : (withArgs 5 0 0 0 0 node3).takes 0 ∧
    ((withArgs 5 0 0 0 0 node3).cellAt 0).args[0].toNat = (5 : RecordId).val ∧
    ((withArgs 5 0 0 0 0 node3).cellAt 0).args[1] = 0 ∧ (withArgs 5 1 0 0 0 node3).takes 0 ∧
    ((withArgs 5 1 0 0 0 node3).cellAt 0).args[1] = 1 ∧ ((withArgs 5 1 0 0 0 node3).recordAt 5).slotInput = none ∧
    denied5.takes 0 ∧ (denied5.cellAt 0).args[0].toNat = (5 : RecordId).val ∧ (denied5.cellAt 0).args[1] = 1 ∧
    (denied5.recordAt 5).slotInput = some (1, 5) ∧ (denied5.recordAt 5).claim = .denied ∧ denied5.appends 1 :=
  ⟨by constructor <;> decide, by decide, by decide, by constructor <;> decide, by decide, by decide,
   by constructor <;> decide, by decide, by decide, by decide, by decide, by refine ⟨?_, ?_, ?_⟩ <;> decide⟩
def releasing : Chip := withArgs 5 0 0 0 0 holding5
def releasingShared : Chip := releasing.onRecord 6 (fun x => { x with claim := .asking, slotInput := some (1, 5) })
theorem test_witness_ReleaseGivesClaimUp : releasing.takes 0 ∧ (releasing.cellAt 0).args[0].toNat = (5 : RecordId).val ∧
    (releasing.recordAt 5).claim = .held ∧ (releasing.recordAt 5).slotInput = some (1, 5) ∧
    releasing.shared 5 1 5 = false ∧ releasing.appends 1 ∧ releasingShared.takes 0 ∧
    (releasingShared.cellAt 0).args[0].toNat = (5 : RecordId).val ∧ (releasingShared.recordAt 5).claim = .held ∧
    (releasingShared.recordAt 5).slotInput = some (1, 5) ∧ releasingShared.shared 5 1 5 = true ∧
    ((withArgs 5 0 0 0 0 node3).recordAt 5).claim ≠ .held :=
  ⟨by constructor <;> decide, by decide, by decide, by decide, by decide +kernel, by refine ⟨?_, ?_, ?_⟩ <;> decide,
   by constructor <;> decide, by decide, by decide +kernel, by decide +kernel, by decide +kernel, by decide⟩
theorem test_witness_StepRequestsLocally : (stepping {}).takes 0 ∧ (stepping {}).existing 7 ∧
    ((stepping {}).cellAt 0).args[0].toNat = (7 : InputId).val ∧ (stepping {}).pre.inputs[(7 : InputId)].claimant = none ∧
    (stepping {}).pre.queued 7 = false ∧ (stepping {}).pre.queue.length < 8 ∧
    (stepping { queue := [⟨7, 30, .loc⟩] }).pre.queued 7 = true ∧
    (stepping fullQueue).pre.queued 7 = false ∧ 8 ≤ (stepping fullQueue).pre.queue.length ∧
    (stepping (({} : PreampUnit).onInput 7 (fun x => { x with claimant := some 1 }))).pre.inputs[(7 : InputId)].claimant =
      some 1 ∧
    (withArgs 8 61 0 0 0 node3).takes 0 ∧
    (withArgs 8 61 0 0 0 node3).cfg.preampCount ≤ ((withArgs 8 61 0 0 0 node3).cellAt 0).args[0].toNat :=
  ⟨by constructor <;> decide, by show (7 : InputId).val < 8; decide, by decide, by decide, by decide, by decide, by decide,
   by decide, by decide, by decide, by constructor <;> decide, by decide⟩
def unclaiming : Chip := withArgs 5 0 0 0 0 { withPeer with pre := withPeer.pre.onInput 5 (fun x => { x with claimant := some 1 }) }
theorem test_witness_UnclaimDropsClaimant : (withArgs 5 0 0 0 0 node3).takes 0 ∧ (withArgs 5 0 0 0 0 node3).existing 5 ∧
    ((withArgs 5 0 0 0 0 node3).cellAt 0).args[0].toNat = (5 : InputId).val ∧
    (withArgs 5 0 0 0 0 node3).pre.inputs[(5 : InputId)].claimant = none ∧ unclaiming.takes 0 ∧ unclaiming.existing 5 ∧
    (unclaiming.cellAt 0).args[0].toNat = (5 : InputId).val ∧
    unclaiming.pre.inputs[(5 : InputId)].claimant = some 1 ∧ unclaiming.appends 1 ∧ (withArgs 8 0 0 0 0 node3).takes 0 ∧
    (withArgs 8 0 0 0 0 node3).cfg.preampCount ≤ ((withArgs 8 0 0 0 0 node3).cellAt 0).args[0].toNat :=
  ⟨by constructor <;> decide, by show (5 : InputId).val < 8; decide, by decide, by decide, by constructor <;> decide,
   by show (5 : InputId).val < 8; decide, by decide, by decide, by refine ⟨?_, ?_, ?_⟩ <;> decide,
   by constructor <;> decide, by decide⟩
def allot5 : Chip := withArgs 15 2 160 96 0 { node3 with pln := { draft := (Vector.replicate 16 none).set 0 (some ⟨1, 0, 32, .mic⟩) } }
theorem test_witness_AllotEditsDraft : allot5.takes 0 ∧ allot5.cfg.nodeId = allot5.cfg.authority ∧
    (allot5.cellAt 0).args[0].toNat = (15 : Fin 16).val ∧ (allot5.cellAt 0).args[4].toNat = kindCode .mic ∧
    160 + 96 ≤ allot5.cfg.capacity ∧
    (∀ b ∈ draftAllots (allot5.pln.draft.set (15 : Fin 16) none), (⟨2, 160, 96, .mic⟩ : Allotment).meets b = false) ∧
    ownTotal (draftAllots (allot5.pln.draft.set (15 : Fin 16) none)) 2 + 96 ≤ 96 ∧
    (∃ b ∈ draftAllots (allot5.pln.draft.set (15 : Fin 16) none), (⟨2, 31, 2, .mic⟩ : Allotment).meets b = true) ∧
    (⟨2, 160, 0, .mic⟩ : Allotment).count = 0 ∧ allot5.cfg.capacity < 160 + 97 ∧
    (∀ b ∈ draftAllots (allot5.pln.draft.set (15 : Fin 16) none), (⟨1, 32, 65, .mic⟩ : Allotment).meets b = false) ∧
    32 + 65 ≤ allot5.cfg.capacity ∧ 96 < ownTotal (draftAllots (allot5.pln.draft.set (15 : Fin 16) none)) 1 + 65 ∧
    15 < ((withArgs 16 2 160 96 0 allot5).cellAt 0).args[0].toNat ∧ 7 < ((withArgs 15 8 160 96 0 allot5).cellAt 0).args[1].toNat ∧
    3 < ((withArgs 15 2 160 96 4 allot5).cellAt 0).args[4].toNat ∧
    ({ node3 with cfg := { node3.cfg with authority := 0 } } : Chip).cfg.nodeId ≠ 0 :=
  ⟨by constructor <;> decide, by decide⟩
/-- R10: 32 slots of node 1 stand in the draft, and 65 more would exceed 96. -/
theorem test_allot_capacity : ((((withArgs 15 1 32 65 0 allot5)).codeWrite 0 12 0 actAllot).cellAt 0).reason = .capacity ∧
    ((((withArgs 15 1 32 64 0 allot5)).codeWrite 0 12 0 actAllot).cellAt 0).value = 96 := by decide
theorem test_witness_AnnounceAndPresentWait : node3.takes 0 ∧ node3.cfg.nodeId = node3.cfg.authority ∧ node3.pln.staged = none ∧
    (∃ st : StagedPlan, (staging true).pln.staged = some st ∧ st.announced = true) ∧
    ({ node3 with cfg := { node3.cfg with authority := 0 } } : Chip).cfg.nodeId ≠ 0 :=
  ⟨test_takes, by decide, by decide, ⟨_, rfl, rfl⟩, by decide⟩
theorem test_witness_DrillSetsTransmitMode : (withArgs 1 2 480 0 0 node3).takes 0 ∧
    ((withArgs 1 2 480 0 0 node3).cellAt 0).args[0].toNat = portCode .west ∧
    ((withArgs 1 2 480 0 0 node3).cellAt 0).args[1].toNat = 2 ∧
    ((withArgs 1 2 480 0 0 node3).cellAt 0).args[2].toInt ≠ 0 ∧ ((withArgs 1 1 480 0 0 node3).cellAt 0).args[1].toNat = 1 ∧
    (withArgs 1 0 480 0 0 node3).takes 0 ∧
    ((withArgs 1 0 480 0 0 node3).cellAt 0).args[0].toNat = portCode .west ∧
    ((withArgs 1 0 480 0 0 node3).cellAt 0).args[1].toNat = 0 ∧
    ((withArgs 1 1 0 0 0 node3).cellAt 0).args[1].toNat ≤ 2 ∧ ((withArgs 1 1 0 0 0 node3).cellAt 0).args[2].toInt = 0 ∧
    1 < ((withArgs 2 0 0 0 0 node3).cellAt 0).args[0].toNat ∧ 2 < ((withArgs 0 3 0 0 0 node3).cellAt 0).args[1].toNat :=
  ⟨by constructor <;> decide, by decide, by decide, by decide, by decide, by constructor <;> decide, by decide, by decide, by decide,
   by decide, by decide, by decide⟩
def pendingStep : Chip := node3.onCad (fun x => { x with state := .stepPending, ref := some 1 })
theorem test_witness_RelockArmsStep : node3.takes 0 ∧ node3.cad.role = .follower ∧ node3.cad.state = .free ∧ pendingStep.takes 0 ∧
    pendingStep.cad.role = .follower ∧ (∃ n : NodeId, pendingStep.cad.ref = some n) ∧
    pendingStep.cad.state = .stepPending ∧ timing3.takes 0 ∧ timing3.cad.role = .timing ∧ timing3.cfg.source = .wck ∧
    timing3.cad.state = .locked ∧ (timing3.onCad (fun x => { x with state := .holdover })).cad.state = .holdover ∧
    ({ timing3 with cfg := { timing3.cfg with source := .internal } } : Chip).cfg.source = .internal :=
  ⟨test_takes, by decide, by decide, by constructor <;> decide, by decide, ⟨_, rfl⟩, by decide, by constructor <;> decide, by decide,
   by decide, by decide, by decide, by decide⟩
theorem test_witness_ClearagesClearsMaximumAges : node3.takes 0 := test_takes
theorem test_witness_RestartIsFullReset : ({ node3 with sys := { mode := .halted } } : Chip).sys.mode ≠ .loading ∧
    (node3.cellAt 0).state ≠ .running ∧ State.reset.chip.sys.mode = .loading ∧
    ((runningCell 13 .adoption node3).cellAt 0).state = .running ∧
    (runningCell 13 .adoption node3).sys.mode ≠ .loading := by decide
theorem test_witness_GainMultiplierFollowsTable : (-144 : Int) ≤ -144 ∧ (-144 : Int) ≤ 48 ∧
    ({ level := 48, mask := 1 } : Record).ok ∧ anyKeyed 1 (Vector.replicate 4 { state := .keyed }) = true ∧
    anyKeyed 0 (Vector.replicate 4 { state := .keyed }) = false :=
  ⟨by decide, by decide, ⟨⟨by decide, by decide⟩, ⟨by decide, by decide⟩, by decide, by decide⟩, by decide, by decide⟩
/-- R131: a target that leaves 0 takes the fade-in length, and a duck that engages the attack length. -/
theorem test_evaluation_lengths :
    ((({ binding := some 1 } : Record).evaluate 48 480 (Vector.replicate 4 {}) ((heard true).view (some 1))).1.main.length = 96) ∧
    ((({ binding := some 1, last := some (1, .mic), duck := -24, mask := 1
         main := ⟨1048576, 1048576, 1, 1⟩ } : Record).evaluate 48 480 (Vector.replicate 4 { state := .keyed })
      ((heard true).view (some 1))).1.main.length = 48) := by decide +kernel
theorem test_witness_RecordEvaluationFollowsStages : ({} : Record).binding = none ∧
    (⟨5, 5, 3, 1⟩ : Ramp).value = (⟨5, 5, 3, 1⟩ : Ramp).target ∧ 2 + 3 ≤ 5 ∧ (3 < 5 ∧ 5 < 3 + 3) ∧
    5 + 3 ≤ 8 ∧ (5 < 7 ∧ 7 < 5 + 3) ∧
    (∃ (v : SlotView) (q : Slot), (heard true).view (some 1) = some v ∧ v.slot = some q ∧ v.kind = .mic ∧
      q.field = .step (some 36)) ∧
    (∃ v : SlotView, unheard.view (some 1) = some v ∧ v.slot = none) ∧ unheard.view none = none := by
  refine ⟨rfl, rfl, by decide, by decide, by decide, by decide, ⟨_, _, rfl, rfl, ?_, ?_⟩, ⟨_, rfl, ?_⟩, rfl⟩ <;> decide +kernel
def listening (n : Nat) : Chip :=
  { node3 with ord := { events := List.replicate n ⟨.ringState, 0, 0, 0⟩, attention := 0x20 } }
theorem test_witness_AttentionFollowsQueue : State.reset.chip.sys.mode = .loading ∧ node3.sys.mode = .run ∧
    ({ node3 with sys := { mode := .halted } } : Chip).sys.mode = .halted ∧
    (listening 31).sys.mode = .run ∧ (listening 31).ord.attention.getLsbD (eventCode .ringState) = true ∧
    (listening 31).ord.events.length < 32 ∧ 32 ≤ (listening 32).ord.events.length ∧
    (∃ e rest, (listening 1).ord.events = e :: rest) ∧ litReading.sys.mode = .loading ∧ litReading.sys.load = .reading ∧
    loadCheck goodBytes emptyImage litReading.windowBase = none := by
  refine ⟨by decide, by decide, by decide, by decide, by decide, by decide, by decide, ⟨_, _, rfl⟩, by decide, by decide,
    by decide +kernel⟩
/-- Node 3 that hears node 1 on its East port: a member with the serial and rank of `burst1`, and the plan authority. -/
def hearing : Chip :=
  { node3 with
    cfg := { node3.cfg with authority := 1 }
    rng := (inRx .up 0).rng
    cad := { state := .locked, ref := some 2, rank := (Vector.replicate 8 none).set 1 (some 0) }
    sel := node3.sel.onOrigin 1 (fun x => { x with member := true, serial := 11, silence := 0 }) }
/-- The same with node 1 as its reference. -/
def following (st : CadenceState) (open' : Bool) (n : Nat) (notes : List RefNote) : Chip :=
  hearing.onCad (fun x => { x with ref := some 1, state := st, decisionOpen := open', lockCount := n, refLog := notes })
/-- The same with one message to node 1 in the outbox. -/
def awaitingAnswer (e : OutEntry) : Chip := hearing.withOutbox [e]
/-- The conditions of `hearsPeer` that are not the check code. -/
theorem hears_peer {c : Chip} {p : Port} {b : Burst}
    (h : (c.portOf p).rx = .up ∧ b.origin ≠ c.cfg.nodeId ∧ (c.sel.origins[b.origin]).member = true ∧
      (c.sel.origins[b.origin]).serial = b.serial ∧ c.cad.rank[b.origin] = some b.cadence.rank ∧ c.lossDue = false ∧
      c.cad.follows b.origin = false) : c.hearsPeer p b (checkWord b) :=
  ⟨⟨h.1, good_own b⟩, ⟨h.2.1, h.2.2.1, h.2.2.2.1, h.2.2.2.2.1, h.2.2.2.2.2.1⟩, h.2.2.2.2.2.2⟩
/-- The conditions of `hearsReference` that are not the check code. -/
theorem hears_reference {c : Chip} {p : Port} {b : Burst}
    (h : (c.portOf p).rx = .up ∧ b.origin ≠ c.cfg.nodeId ∧ (c.sel.origins[b.origin]).member = true ∧
      (c.sel.origins[b.origin]).serial = b.serial ∧ c.cad.rank[b.origin] = some b.cadence.rank ∧ c.lossDue = false)
    (k : c.cad.role = .follower ∧ c.cad.ref = some b.origin ∧ c.cad.state ≠ .free ∧ c.cad.stepArmed = false) :
    c.hearsReference p b (checkWord b) :=
  ⟨⟨h.1, good_own b⟩, ⟨h.2.1, h.2.2.1, h.2.2.2.1, h.2.2.2.2.1, h.2.2.2.2.2⟩, k⟩
/-- Node 1's burst in hop 7, of a period too far ahead, or of one presented already. -/
def burstHop7 : Burst := { burst1 with hop := 7 }
def burstFar : Burst := { burst1 with period := 32 }
def burstLate : Burst := { burst1 with period := 0xFFFFFFFF }
theorem test_witness_PeerBurstIsForwardedAndFiled : hearing.hearsPeer .east burst1 (checkWord burst1) ∧
    burst1.hop ≠ 7 ∧ hearing.lit .west = true ∧ (hearing.portOf .west).queue.length < 16 ∧
    hearing.hearsPeer .east burstHop7 (checkWord burstHop7) ∧ burstHop7.hop = 7 ∧
    (hearing.onPort .west (fun x => { x with txMode := .silent })).lit .west = false ∧
    16 ≤ ((hearing.onPort .west (fun x => { x with queue := List.replicate 16 ⟨burst1, true⟩ })).portOf .west).queue.length ∧
    hearing.hearsPeer .east burstFar (checkWord burstFar) ∧
    hearing.sel.classOf burstFar.period (hearing.ageNow burstFar 0) = .outside ∧
    hearing.hearsPeer .east burstLate (checkWord burstLate) ∧ earlier burstLate.period hearing.sel.next = true ∧
    hearing.sel.classOf burst1.period (hearing.ageNow burst1 0) = .inside ∧
    ((hearing.sel.store[burst1.origin])[mod32 burst1.period]).state ≠ .held ∧ burst1.cadence.unsync = false ∧
    (hearing.onCad (fun x => { x with ref := some 1, role := .timing })).cad.state = .locked ∧
    burst1.cadence.state = .locked ∧ burst1.aux = .absent ∧ burst1.answer = none ∧
    ((({} : Selector).takeCopy .east 0 burst1 .inside).store[burst1.origin])[mod32 burst1.period].state = .held :=
  ⟨hears_peer (by decide), by decide, by decide, by decide, hears_peer (by decide), by decide, by decide, by decide,
   hears_peer (by decide), by decide, hears_peer (by decide), by decide, by decide, by decide, by decide, by decide, by decide,
   by decide, by decide, by decide +kernel⟩
theorem test_witness_PeerBurstJoinsRoster : hearing.hearsGood .east { burst1 with origin := 2 } (checkWord { burst1 with origin := 2 }) ∧
    (2 : NodeId) ≠ hearing.cfg.nodeId ∧ hearing.cad.state = .locked ∧ hearing.cad.stepArmed = false ∧
    (hearing.sel.origins[(2 : NodeId)]).member = false ∧ (hearing.sel.origins[burst1.origin]).member = true ∧
    (hearing.sel.origins[burst1.origin]).serial = burst1.serial ∧
    (hearing.onCad (fun x => { x with openToSelf := true, rank := x.rank.set 3 (some 1) })).hearsGood .east { burst1 with serial := 12 }
      (checkWord { burst1 with serial := 12 }) ∧
    ((hearing.onCad (fun x => { x with openToSelf := true, rank := x.rank.set 3 (some 1) })).candidateRank 3).isSome = true ∧
    (hearing.sel.origins[burst1.origin]).serial ≠ 12 ∧ hearing.ord.events.length < 32 ∧
    (∀ (r : RecordId) (i : InputId), (hearing.recordAt r).slotInput ≠ some (2, i)) :=
  ⟨⟨by decide, good_own _⟩, by decide, by decide, by decide, by decide, by decide, by decide, ⟨by decide, good_own _⟩, by decide,
   by decide, by decide, fun r i => by simp [Chip.recordAt, hearing, node3]⟩
/-- The same in FREE with no reference and no member, before it may elect itself. -/
def alone : Chip :=
  { hearing with
    cad := { state := .free }
    sel := hearing.sel.onOrigin 1 (fun x => { x with member := false }) }
def burstRank (r : Fin 16) : Burst := { burst1 with cadence := { burst1.cadence with rank := r } }
theorem test_witness_PeerBurstJoinsRoster_free :
    (∀ r ∈ [(0 : Fin 16), 14, 15], alone.hearsGood .east (burstRank r) (checkWord (burstRank r)) ∧
      (burstRank r).origin ≠ alone.cfg.nodeId ∧ (burstRank r).cadence.rank = r) ∧
    alone.cad.state = .free ∧ alone.cad.role = .follower ∧ alone.cad.ref = none ∧ alone.cad.openToSelf = false ∧
    alone.rng.joinQuiet ≠ 192 ∧ (∀ o : NodeId, o ≠ alone.cfg.nodeId → (alone.sel.origins[o]).member = false) ∧
    alone.sys.mode = .run ∧ alone.ord.events.length < 31 := by
  refine ⟨fun r hr => ?_, by decide⟩
  simp only [List.mem_cons, List.not_mem_nil, or_false] at hr
  rcases hr with rfl | rfl | rfl <;> exact ⟨⟨by decide, good_own _⟩, by decide, by decide⟩
def messageTo (d : NodeId) : Burst := { burst1 with aux := .message ⟨d, true, .claim 5⟩ }
def storedAnswer (toggle : Bool) : Answer := ⟨1, toggle, .claim, 5, .taken 63⟩
theorem test_witness_MessageIsDeliveredOnce : (messageTo 3).aux = .message ⟨3, true, .claim 5⟩ ∧
    hearing.hearsPeer .east (messageTo 3) (checkWord (messageTo 3)) ∧ (messageTo 3).answer = none ∧
    hearing.msg.lastTaken[(messageTo 3).origin] ≠ some (messageTo 3).period ∧
    (∀ a : Answer, hearing.msg.delivered[(messageTo 3).origin] = some a → a.toggle ≠ true) ∧
    (hearing.offer 1 (.claim 5)).2 = .taken 63 ∧ (storedAnswer true).toggle = true ∧ (storedAnswer false).toggle ≠ true ∧
    hearing.hearsPeer .east (messageTo 4) (checkWord (messageTo 4)) ∧ (4 : NodeId) ≠ hearing.cfg.nodeId ∧
    (holding5.recordAt 5).slotInput = some (1, 5) ∧ (holding5.recordAt 5).claim = .held :=
  ⟨by decide, hears_peer (by decide), by decide, by decide, fun a h => by simp [hearing, node3] at h, by decide, by decide, by decide,
   hears_peer (by decide), by decide, by decide, by decide⟩
theorem test_witness_MessageIsDeliveredOnce_repeat :
    ({ hearing with msg := { delivered := (Vector.replicate 8 none).set 1 (some (storedAnswer true)) } } : Chip).hearsPeer .east
      (messageTo 3) (checkWord (messageTo 3)) ∧
    ({ hearing with msg := { delivered := (Vector.replicate 8 none).set 1 (some (storedAnswer true)) } } : Chip).msg.delivered[
      (messageTo 3).origin] = some (storedAnswer true) ∧ (messageTo 3).aux = .message ⟨3, (storedAnswer true).toggle, .claim 5⟩ ∧
    ({ hearing with msg := { lastTaken := (Vector.replicate 8 none).set 1 (some 0) } } : Chip).hearsPeer .east
      (messageTo 3) (checkWord (messageTo 3)) ∧
    ({ hearing with msg := { lastTaken := (Vector.replicate 8 none).set 1 (some 0) } } : Chip).msg.lastTaken[
      (messageTo 3).origin] = some (messageTo 3).period :=
  ⟨hears_peer (by decide), by decide, by decide, hears_peer (by decide), by decide⟩
/-- R176: a DROP takes the claim of the record that holds it and is TAKEN with 1; another node's DROP is TAKEN with 0. -/
theorem test_drop : (holding5.offer 1 (.drop 5)).2 = .taken 1 ∧ ((holding5.offer 1 (.drop 5)).1.recordAt 5).claim = .none ∧
    (holding5.offer 1 (.drop 5)).1.ord.events.map (·.kind) = [.claimLost] ∧ (holding5.offer 2 (.drop 5)).2 = .taken 0 := by
  decide +kernel
def answering (v : Verdict) : Burst := { burst1 with answer := some ⟨3, true, .gain, 5, v⟩ }
def sentEntry (st : OutState) (busy : Nat) (re : Bool) (o : Originator) : OutEntry :=
  { outEntry 1 st 1 o with toggle := some true, busy := busy, resynced := re }
theorem test_witness_AnswerEndsMessage :
    (∀ v ∈ [Verdict.taken 30, .refused .notHolder 2, .busy], (answering v).answer = some ⟨3, true, .gain, 5, v⟩ ∧
      (answering v).aux = .absent) ∧
    (∀ e ∈ [sentEntry .inFlight 0 false .nobody, sentEntry .inFlight 7 true (.cell 0 5), sentEntry .backoff 1 false (.record 5)],
      (awaitingAnswer e).hearsPeer .east (answering .busy) (checkWord (answering .busy)) ∧
      (awaitingAnswer e).msg.lastTaken[(1 : NodeId)] ≠ some 0 ∧ (awaitingAnswer e).msg.outbox = [] ++ e :: [] ∧ e.dest = 1 ∧
      e.state ≠ .waiting ∧ e.toggle = some true ∧ e.body.kind = .gain ∧ e.body.input = 5) ∧
    ({ hearing.recordAt 5 with claim := .asking, slotInput := some (1, 5) } : Record).claim = .asking ∧
    (MsgKind.claim ≠ .gain) := by
  refine ⟨by decide, fun e he => ?_, by decide, by decide⟩
  simp only [List.mem_cons, List.not_mem_nil, or_false] at he
  rcases he with rfl | rfl | rfl <;> exact ⟨hears_peer (by decide), by decide, by decide, by decide, by decide, by decide, by decide, by decide⟩
/-- Record 5 with a claim state on an input of node 1, its CLAIM of input 5 under way. -/
def claimUnder (cl : ClaimState) (i : InputId) (busy : Nat) : Chip :=
  (awaitingAnswer { sentEntry .inFlight busy false (.record 5) with body := .claim 5 }).onRecord 5 (fun x =>
    { x with claim := cl, slotInput := some (1, i) })
/-- The same with 16 more messages waiting for node 2. -/
def claimFull (cl : ClaimState) : Chip :=
  (claimUnder cl 5 0).withOutbox ((claimUnder cl 5 0).msg.outbox ++ List.replicate 16 (outEntry 2 .waiting 0 .nobody))
def claimAnswer (v : Verdict) : Burst := { burst1 with answer := some ⟨3, true, .claim, 5, v⟩ }
theorem test_witness_AnswerEndsMessage_record :
    (∀ v ∈ [Verdict.taken 0, .refused .held 2, .busy], (claimAnswer v).answer = some ⟨3, true, .claim, 5, v⟩ ∧
      ∀ cl ∈ [ClaimState.none, .asking, .held, .denied], ∀ i ∈ [(5 : InputId), 6], ∀ n ∈ [0, 7],
        (claimUnder cl i n).hearsPeer .east (claimAnswer v) (checkWord (claimAnswer v)) ∧
        (claimUnder cl i n).msg.lastTaken[(1 : NodeId)] ≠ some 0 ∧ ((claimUnder cl i n).recordAt 5).claim = cl ∧
        ((claimUnder cl i n).recordAt 5).slotInput = some (1, i) ∧
        (claimUnder cl i n).msg.outbox = [] ++ { sentEntry .inFlight n false (.record 5) with body := .claim 5 } :: []) ∧
    (claimFull .none).hearsPeer .east (claimAnswer (.taken 0)) (checkWord (claimAnswer (.taken 0))) ∧
    (claimFull .none).msg.outbox = [] ++ { sentEntry .inFlight 0 false (.record 5) with body := .claim 5 } ::
      List.replicate 16 (outEntry 2 .waiting 0 .nobody) ∧
    (∀ r : RecordId, (claimUnder .none 5 0).recordAt r = if r = 5 then
      { claim := .none, slotInput := some (1, 5) } else {}) := by
  refine ⟨fun v hv => ⟨rfl, fun cl hc i hi n hn => ?_⟩, hears_peer (by decide), by decide, by decide⟩
  simp only [List.mem_cons, List.not_mem_nil, or_false] at hv hc hi hn
  rcases hv with rfl | rfl | rfl <;> rcases hc with rfl | rfl | rfl | rfl <;> rcases hi with rfl | rfl <;>
    rcases hn with rfl | rfl <;> exact ⟨hears_peer (by decide), by decide, by decide, by decide, by decide⟩
/-- A record HELD on input 5 of node 1, with its GAIN under way for cell 0 or for nobody. -/
def refusedGain (o : Originator) (held : Bool) : Chip :=
  (awaitingAnswer (sentEntry .inFlight 0 false o)).onRecord 5 (fun x =>
    { x with claim := if held then .held else .none, slotInput := some (1, 5) })
theorem test_witness_AnswerEndsMessage_refused :
    (∀ o ∈ [Originator.nobody, .cell 0 5], ∀ h : Bool, ∀ w ∈ [RefuseReason.held, .noInput, .notHolder],
      (refusedGain o h).hearsPeer .east (answering (.refused w 2)) (checkWord (answering (.refused w 2))) ∧
      (refusedGain o h).msg.outbox = [] ++ sentEntry .inFlight 0 false o :: [] ∧ (refusedGain o h).sys.mode = .run ∧
      (refusedGain o h).ord.events.length < 31) ∧
    (sentEntry .inFlight 0 false (.cell 0 5)).body.kind = .gain ∧ ((refusedGain (.cell 0 5) true).recordAt 5).claim = .held ∧
    ((refusedGain (.cell 0 5) true).recordAt 5).slotInput = some (1, 5) ∧
    ((refusedGain (.cell 0 5) false).recordAt 5).claim ≠ .held := by
  refine ⟨fun o ho h w hw => ?_, by decide⟩
  simp only [List.mem_cons, List.not_mem_nil, or_false] at ho hw
  rcases ho with rfl | rfl <;> cases h <;> rcases hw with rfl | rfl | rfl <;>
    exact ⟨hears_peer (by decide), by decide, by decide, by decide⟩
def fragmentBurst (k : FragKind) (v : Version) : Burst :=
  { burst1 with aux := .fragment { kind := k, version := v, number := 5, body := Vector.replicate 12 0 } }
def partAssembly (e : Period) (n : Fin 256) : Assembly :=
  { version := 8, e := e, marks := (Vector.replicate 6 true).set 5 false
    bodies := (Vector.replicate 6 (Vector.replicate 12 0)).set 0 ((Vector.replicate 12 0).set 0 (BitVec.ofNat 8 n.val)) }
/-- A plan up to the last slot of the ring, and its six fragments assembled, the last byte not zero. -/
def fullPlan : Plan := { version := 9, allots := [⟨7, 0, 1, .line⟩, ⟨3, 1, 96, .talk⟩, ⟨2, 100, 60, .mix⟩, ⟨1, 200, 56, .mic⟩] }
def assembled (x : Plan) : Assembly :=
  { version := x.version, e := 0, marks := Vector.replicate 6 true
    bodies := ⟨#[fragmentBody x 0, fragmentBody x 1, fragmentBody x 2, fragmentBody x 3, fragmentBody x 4,
      (fragmentBody x 5).set 11 1], rfl⟩ }
theorem test_witness_PlanFragmentsAndMismatch_beacon : fullPlan.ok 256 = true ∧
    fullPlan.allots.Pairwise (fun u v => u.first < v.first) ∧ (assembled fullPlan).version = fullPlan.version ∧
    (∀ (f : Fin 6) (k : Fin 12), 12 * f.val + k.val < 64 →
      ((assembled fullPlan).bodies[f])[k] = (fragmentBody fullPlan f)[k]) := by decide +kernel
/-- R12: the assembled fragments of a plan give it back, whatever the last eight bytes. -/
theorem test_plan_assembled : (assembled fullPlan).plan = fullPlan := by decide +kernel
theorem test_witness_PlanFragmentsAndMismatch : (∀ k ∈ [FragKind.staged 96, .staged 0, .current], ∀ v ∈ [(0 : Version), 8],
      hearing.hearsPeer .east (fragmentBurst k v) (checkWord (fragmentBurst k v))) ∧
    hearing.hearsPeer .east { burst1 with version := 9 } (checkWord { burst1 with version := 9 }) ∧
    burst1.origin = hearing.cfg.authority ∧ burst1.cadence.unsync = false ∧ burst1.answer = none ∧
    hearing.pln.current.version = 0 ∧ later 0 hearing.cad.period = false ∧ later 96 hearing.cad.period = true ∧
    (storeFragment none 8 96 ⟨.staged 96, 8, 5, Vector.replicate 12 0⟩).complete = false ∧
    (storeFragment (some (partAssembly 96 0)) 8 96 ⟨.staged 96, 8, 5, Vector.replicate 12 0⟩).complete = true ∧
    (storeFragment (some (partAssembly 96 0)) 8 96 ⟨.staged 96, 8, 5, Vector.replicate 12 0⟩).plan.ok hearing.cfg.capacity = true ∧
    (storeFragment (some (partAssembly 0 128)) 8 0 ⟨.current, 8, 5, Vector.replicate 12 0⟩).complete = true ∧
    (storeFragment (some (partAssembly 0 128)) 8 0 ⟨.current, 8, 5, Vector.replicate 12 0⟩).plan.ok hearing.cfg.capacity = false ∧
    hearing.pln.staged = none ∧
    (9 : Version) ≠ (hearing.planAt 0).version ∧ burst1.version = (hearing.planAt burst1.period).version ∧
    burst1.slots.length = (hearing.planAt burst1.period).total burst1.origin ∧
    quiet96 hearing.pln.mismatch[burst1.origin] hearing.cad.period = true ∧ quiet96 (some 0) hearing.cad.period = false ∧
    hearing.adopt.pln = hearing.pln := by
  refine ⟨fun k hk v hv => ?_, hears_peer (by decide), by decide +kernel⟩
  simp only [List.mem_cons, List.not_mem_nil, or_false] at hk hv
  rcases hk with rfl | rfl | rfl <;> rcases hv with rfl | rfl <;> exact hears_peer (by decide)
/-- R17: a staged plan that is due is adopted before a fragment of its own version comes, which is then ignored. -/
theorem test_due_adoption : ({ hearing with pln :=
      { staged := some { plan := { version := 8 }, e := 0, effective := 0, announced := false } } }.takeFragment
        (fragmentBurst .current 8)).pln.current.version = 8 := by decide +kernel
theorem test_witness_ReferenceCopyIsJudged :
    (∀ st ∈ [CadenceState.locked, .locking, .holdover, .stepPending], ∀ open' : Bool, ∀ n ∈ [46, 47], ∀ el ∈ [8, 9],
      (following st open' n []).hearsReference .east burst1 (checkWord burst1) ∧
      (following st open' n []).cad.errorIs .east ((following st open' n []).ageNow burst1 el) el ∧
      ¬ (following st open' n []).cad.eventTaken burst1.period) ∧
    (∀ st ∈ [CadenceState.locked, .locking, .holdover, .stepPending], ∀ open' : Bool,
      (following st open' 0 [⟨.west, 0, 0, .within⟩]).cad.eventTaken burst1.period) ∧
    (following .locked false 0 [⟨.west, 0, 0, .within⟩]).cad.refLog.find?
      (fun y => y.port = otherPort .east && y.period = burst1.period) = some ⟨.west, 0, 0, .within⟩ ∧
    (following .locked false 0 [⟨.west, 0, 0, .within⟩]).cad.pathAge.get .east = none := by
  refine ⟨fun st hs open' n hn el he => ⟨?_, ?_, ?_⟩, fun st hs open' => ⟨⟨.west, 0, 0, .within⟩, by simp [following, Chip.onCad], by decide, by decide⟩, by decide, by decide⟩ <;>
    simp only [List.mem_cons, List.not_mem_nil, or_false] at hs hn he
  · cases open' <;> rcases hs with rfl | rfl | rfl | rfl <;> rcases hn with rfl | rfl <;>
      exact hears_reference (by decide) (by decide)
  · refine .inr ⟨by rfl, by rfl, ?_⟩
    rcases he with rfl | rfl
    · show (8 : Int) = ageOf 0 0 8
      decide
    · show (9 : Int) = ageOf 0 0 9
      decide
  · rintro ⟨o, ho, -⟩
    simp [following, Chip.onCad] at ho
/-- The same with a path age on the West port alone. -/
def oneRoute (notes : List RefNote) : Chip := (following .locked false 0 notes).onCad (fun x => { x with pathAge := ⟨none, some 4⟩ })
theorem test_witness_ReferenceCopyIsJudged_unjudged :
    (∀ j ∈ [Judgement.within, .outside], (oneRoute [⟨.west, 0, 0, j⟩]).hearsReference .east burst1 (checkWord burst1) ∧
      (oneRoute [⟨.west, 0, 0, j⟩]).cad.refLog.find? (fun y => y.port = otherPort .east && y.period = burst1.period) =
        some ⟨.west, 0, 0, j⟩) ∧
    (oneRoute []).cad.pathAge.get .east = none ∧ (oneRoute []).cad.pathAge.get (otherPort .east) = some 4 ∧
    (oneRoute []).cad.refLog.find? (fun y => y.port = otherPort .east && y.period = burst1.period) = none := by
  refine ⟨fun j hj => ?_, by decide⟩
  simp only [List.mem_cons, List.not_mem_nil, or_false] at hj
  rcases hj with rfl | rfl <;> exact ⟨hears_reference (by decide) (by decide), by decide⟩
theorem test_witness_ReferenceCopyStepsTick :
    (∀ st ∈ [CadenceState.free, .stepPending], ∀ b ∈ [burst1, burstFar],
      ((following st false 0 []).onCad (fun x => { x with stepArmed := true })).hearsGood .east b (checkWord b) ∧
      ((following st false 0 []).onCad (fun x => { x with stepArmed := true })).knows b) ∧
    hearing.cad.role = .follower ∧ hearing.rng.joinQuiet ≠ 192 ∧ hearing.pln.repair = none ∧ hearing.sel.deferred = false ∧
    atOrBefore 5 hearing.cad.period = false ∧ atOrBefore 0 hearing.cad.period = true ∧
    2 ≤ hearing.sel.delay ∧ hearing.sel.delay ≤ 16 ∧
    (∀ o : NodeId, o ≠ 1 → (hearing.sel.origins[o]).member = true → (hearing.sel.origins[o]).silence < 95) := by
  refine ⟨fun st hs b hb => ?_, by decide⟩
  simp only [List.mem_cons, List.not_mem_nil, or_false] at hs hb
  rcases hs with rfl | rfl <;> rcases hb with rfl | rfl <;>
    exact ⟨⟨by decide, good_own _⟩, by decide, by decide, by decide, by decide, by decide⟩
/-- The stepping part with a staged plan of the given E that is not due, announced here by cell 0. -/
def steppingStaged (e : Period) : Chip :=
  runningCell 13 .adoption { following .free false 0 [] with
    pln := { staged := some { plan := { version := 8 }, e := e, effective := 100, announced := true } } }
theorem test_witness_ReferenceCopyStepsTick_plans : (∀ f : Fragment, burst1.aux ≠ .fragment f) ∧
    (∀ e ∈ [(0 : Period), 48000, 48001], (steppingStaged e).hearsGood .east burst1 (checkWord burst1) ∧
      (steppingStaged e).adopt.pln.staged = some { plan := { version := 8 }, e := e, effective := 100, announced := true } ∧
      ((steppingStaged e).cellAt 0).state = .running ∧ ((steppingStaged e).cellAt 0).order.map (·.waits) = some .adoption ∧
      (steppingStaged e).msg.outbox = []) ∧
    later 0 burst1.period = false ∧ later 48000 burst1.period = true ∧ ¬ 48000 < ((48000 : Period) - burst1.period).toNat ∧
    later 48001 burst1.period = true ∧ 48000 < ((48001 : Period) - burst1.period).toNat ∧
    (following .free false 0 []).adopt.pln.staged = none := by
  refine ⟨fun f h => by simp [burst1] at h, fun e he => ?_, by decide⟩
  simp only [List.mem_cons, List.not_mem_nil, or_false] at he
  rcases he with rfl | rfl | rfl <;> exact ⟨⟨by decide, good_own _⟩, by decide, by decide, by decide, by decide⟩
theorem test_witness_StepKeepsMemoryAndBankForm : Memory.wf (at0 node3).mem = true ∧ node3.banksOk ∧
    Sys2Proof.Machine.step (at0 node3) = .next (at0 node3) := ⟨rfl, test_banks, rfl⟩
theorem test_witness_StepKeepsQueueAndDelayBounds : node3.queuesOk ∧ (deferredAt 16).delayOk ∧
    Sys2Proof.Machine.step (at0 node3) = .next (at0 node3) ∧
    Sys2Proof.Machine.step (at0 (deferredAt 16)) = .next (at0 (deferredAt 16)) :=
  ⟨⟨by decide, by decide, by decide, by decide, fun p => by cases p <;> decide⟩,
   ⟨fun _ => by decide, fun p h => by cases h; decide⟩, rfl, rfl⟩
theorem test_witness_StepKeepsRampRange : node3.rampsOk ∧ Sys2Proof.Machine.step (at0 node3) = .next (at0 node3) := by
  refine ⟨fun r => ?_, rfl⟩
  have h : node3.recordAt r = {} := by simp [Chip.recordAt, node3]
  rw [h]
  exact ⟨⟨by decide, by decide⟩, ⟨by decide, by decide⟩, by decide, by decide⟩
theorem test_witness_StepKeepsClaimantsMembers : ownClaim.claimsOk ∧ reading.claimsOk ∧
    Sys2Proof.Machine.step (at0 ownClaim) = .next (at0 ownClaim) := by
  refine ⟨⟨fun i d h => ?_, fun h => absurd rfl h⟩, ⟨fun i d h => ?_, fun _ => ⟨fun i => ?_, rfl, rfl, fun p => by cases p <;> rfl⟩⟩, rfl⟩
  · by_cases hi : i = 5
    · subst hi
      have : some (3 : NodeId) = some d := h
      cases this
      decide
    · have all : ∀ k : InputId, k ≠ 5 → ownClaim.pre.inputs[k].claimant = none := by decide +kernel
      rw [all i hi] at h
      cases h
  · have : reading.pre.inputs[i].claimant = none := by simp [reading, State.reset, Chip.atPowerOn]
    rw [this] at h
    cases h
  · simp [reading, State.reset, Chip.atPowerOn]
end Sys2Proof.Tests
end

section
/-! PROOFS. CLEARAGES (R72): the order taken at once, and the advice of a selector that holds no maximum age. -/

namespace Sys2Proof.Machine

/-! ## Orders that complete at once (R181, R182) -/

/-- Two changes of one entry of a table are one change. -/
theorem upd_upd {α : Type} {n : Nat} (v : Vector α n) (i : Fin n) (f g : α → α) :
    upd (upd v i f) i g = upd v i (fun x => g (f x)) := by
  simp [upd]

/-- Two changes of one cell are one change. -/
theorem Chip.onCell_onCell (i : CellId) (f g : OrderCell → OrderCell) (c : Chip) :
    (c.onCell i f).onCell i g = c.onCell i (fun x => g (f x)) := by
  simp [Chip.onCell, upd_upd]

@[simp] theorem Chip.cellAt_onCell (i : CellId) (f : OrderCell → OrderCell) (c : Chip) :
    (c.onCell i f).cellAt i = f (c.cellAt i) :=
  upd_getElem_self ..

/-- The recording of a code touches the cells alone, a change of the Burst Selector the selector alone: their order is immaterial. -/
theorem Chip.onSel_recordCode (f : Selector → Selector) (i : CellId) (tag : BitVec 16) (code : Byte) (c : Chip) :
    (c.recordCode i tag code).onSel f = (c.onSel f).recordCode i tag code := rfl

/-- A cell whose code was just recorded, and that was not RUNNING, completes DONE without an event. -/
theorem Chip.done_recordCode {i : CellId} {tag : BitVec 16} {code : Byte} {v : Word} {c : Chip}
    (h : (c.cellAt i).state ≠ .running) : (c.recordCode i tag code).done i v = c.endsDone i code tag v := by
  have hrec : ((c.recordCode i tag code).cellAt i).state ≠ .running := by simpa [Chip.recordCode] using h
  rw [Chip.done, Chip.finish_atOnce hrec, Chip.recordCode, Chip.onCell_onCell]
  rfl

/-! ## The advice (R71, R72) -/

/-- Where no path record holds a maximum age the advice is the least delay. -/
theorem Selector.adviceOf_noMaxAge {s : Selector} (self : NodeId)
    (h : ∀ n : NodeId, s.paths[n].east.maxAge = none ∧ s.paths[n].west.maxAge = none) : s.adviceOf self = 2 := by
  have hages : (((List.finRange 8).filter (fun n => n ≠ self)).flatMap
      (fun n => [s.paths[n].east.maxAge, s.paths[n].west.maxAge])).filterMap id = [] := by
    rw [List.filterMap_eq_nil_iff]
    intro a ha
    obtain ⟨n, -, hn⟩ := List.mem_flatMap.mp ha
    obtain ⟨heast, hwest⟩ := h n
    rw [heast, hwest] at hn
    simpa using hn
  unfold Selector.adviceOf
  dsimp only
  rw [hages]

/-- CLEARAGES leaves no maximum age in any path record. -/
theorem Selector.clearAges_noMaxAge (s : Selector) (n : NodeId) :
    s.clearAges.paths[n].east.maxAge = none ∧ s.clearAges.paths[n].west.maxAge = none := by
  simp [Selector.clearAges, PerPort.both]

/-! ## CLEARAGES (R72) -/

/-- CLEARAGES where it is taken: the maximum ages go, and the cell ends with the advice that stood before. -/
theorem Chip.codeWrite_clearages {i : CellId} {tag : BitVec 16} {c : Chip} (h : c.takes i) :
    c.codeWrite i tag 17 actClearages = (c.onSel (·.clearAges)).endsDone i 17 tag (wordOf c.sel.advice) := by
  obtain ⟨hrun, hcell⟩ := h
  rw [Chip.codeWrite_taken hrun hcell, actClearages, Chip.onSel_recordCode, Chip.recordCode_sel]
  exact Chip.done_recordCode hcell

/-- CLEARAGES as the command table hands it on. -/
theorem exec_clearages (i : CellId) (tag : BitVec 16) (sp : Byte) (s : State) :
    exec (.clearages i tag sp) s = .next (s.codeWord i tag sp 17 (·.codeWrite i tag 17 actClearages)) := rfl

/-- Settles O52: the code write is taken at once, and no maximum age is left to advise on. -/
theorem clearagesClearsMaximumAges : Obligations.ClearagesClearsMaximumAges := by
  unfold Obligations.ClearagesClearsMaximumAges
  refine ⟨fun i tag sp s htakes => ?_, fun s n => Selector.adviceOf_noMaxAge n s.clearAges_noMaxAge⟩
  rw [exec_clearages, State.codeWord, Chip.codeWrite_clearages htakes]
  rfl

end Sys2Proof.Machine
end

section
/-! PROOFS. The gain table and the multiplier (R127), and the range of the gains that the three stages hand it (R128 to R130). -/

namespace Sys2Proof.Machine

/-! ## The gain table (R127) -/

/-- Each value is 2^20 × 2^(k/12) rounded to nearest, said without roots: the value less and plus one half, doubled and taken to the
twelfth power, encloses (2^21)^12 × 2^k. -/
theorem gainTable_rounded (k : Fin 12) : (2 * gainTable[k.val]! - 1) ^ 12 < 2097152 ^ 12 * 2 ^ k.val ∧
    2097152 ^ 12 * 2 ^ k.val < (2 * gainTable[k.val]! + 1) ^ 12 := by
  revert k
  decide

/-- The table covers one octave: its values lie from unity to below twice unity. -/
theorem gainTable_octave (k : Fin 12) : 2 ^ 20 ≤ gainTable[k.val]! ∧ gainTable[k.val]! < 2 ^ 21 := by
  revert k
  decide

/-- The multiplier's reading of the table, with 0 outside it, is the reading that fills in the default. -/
theorem gainTable_getD (n : Nat) : gainTable.getD n 0 = gainTable[n]! :=
  (List.getD_eq_getElem?_getD ..).trans (List.getElem!_eq_getElem?_getD ..).symm

/-! ## The multiplier (R127) -/

/-- A gain is its index in the table and its exponent: for an exponent that is not negative the table value is doubled. -/
theorem gainM_doubled (k : Fin 12) (e : Nat) : gainM (12 * e + k.val) = gainTable[k.val]! * 2 ^ e := by
  have hindex : ((12 * e + k.val : Int).emod 12).toNat = k.val := by
    change ((12 * e + k.val : Int) % 12).toNat = k.val
    omega
  have hexp : (12 * e + k.val : Int).ediv 12 = e := by
    change (12 * e + k.val : Int) / 12 = e
    omega
  simp only [gainM, hindex, hexp, if_pos (Int.natCast_nonneg e), Int.toNat_natCast, gainTable_getD]

/-- For a negative exponent the table value is divided, half the divisor added first: a tie goes upward. -/
theorem gainM_divided (k : Fin 12) (e : Nat) :
    gainM (k.val - 12 * ((e : Int) + 1)) = (gainTable[k.val]! + 2 ^ e) / 2 ^ (e + 1) := by
  have hindex : ((k.val - 12 * ((e : Int) + 1)).emod 12).toNat = k.val := by
    change ((k.val - 12 * ((e : Int) + 1)) % 12).toNat = k.val
    omega
  have hexp : (k.val - 12 * ((e : Int) + 1)).ediv 12 = -((e + 1 : Nat) : Int) := by
    change (k.val - 12 * ((e : Int) + 1)) / 12 = _
    omega
  have hneg : ¬ (0 : Int) ≤ -((e + 1 : Nat) : Int) := by omega
  have hhalf : 2 ^ (e + 1) / 2 = 2 ^ e := by rw [Nat.pow_succ, Nat.mul_div_cancel _ (by decide)]
  simp only [gainM, hindex, hexp, if_neg hneg, Int.neg_neg, Int.toNat_natCast, hhalf, gainTable_getD]

/-- Every gain has one of the two forms that the multiplier's equations speak of. -/
theorem gain_index_exponent (g : Int) :
    (∃ (k : Fin 12) (e : Nat), g = 12 * e + k.val) ∨ ∃ (k : Fin 12) (e : Nat), g = k.val - 12 * ((e : Int) + 1) := by
  obtain hpos | hneg := le_or_gt 0 g
  · exact .inl ⟨⟨(g % 12).toNat, by omega⟩, (g / 12).toNat, by dsimp only; omega⟩
  · exact .inr ⟨⟨(g % 12).toNat, by omega⟩, (-(g / 12) - 1).toNat, by dsimp only; omega⟩

theorem gainM_zero : gainM 0 = 1048576 := gainM_doubled 0 0

theorem gainM_least : gainM (-144) = 256 := gainM_divided 0 11

theorem gainM_greatest : gainM 48 = 16777216 := gainM_doubled 0 4

/-- From −144 to +48 the multiplier lies between its values at the two ends. -/
theorem gainM_range {g : Int} (hlow : -144 ≤ g) (hhigh : g ≤ 48) : 256 ≤ gainM g ∧ gainM g ≤ 16777216 := by
  obtain ⟨k, e, rfl⟩ | ⟨k, e, rfl⟩ := gain_index_exponent g <;> obtain ⟨hunity, htwice⟩ := gainTable_octave k
  · by_cases htop : e = 4
    · have hk : k = 0 := Fin.ext (by rw [Fin.val_zero]; omega)
      subst htop hk
      exact ⟨by decide, gainM_greatest.le⟩
    · rw [gainM_doubled]
      have hpow : 2 ^ e ≤ 2 ^ 3 := Nat.pow_le_pow_right (by decide) (by omega)
      constructor
      · calc 256 ≤ gainTable[k.val]! := by omega
          _ ≤ gainTable[k.val]! * 2 ^ e := Nat.le_mul_of_pos_right _ (by positivity)
      · calc gainTable[k.val]! * 2 ^ e ≤ 2 ^ 21 * 2 ^ 3 := Nat.mul_le_mul htwice.le hpow
          _ = 16777216 := by norm_num
  · rw [gainM_divided]
    have hpow : 2 ^ (e + 1) ≤ 2 ^ 12 := Nat.pow_le_pow_right (by decide) (by omega)
    constructor
    · rw [Nat.le_div_iff_mul_le (by positivity)]
      omega
    · calc (gainTable[k.val]! + 2 ^ e) / 2 ^ (e + 1) ≤ gainTable[k.val]! + 2 ^ e := Nat.div_le_self _ _
        _ ≤ 16777216 := by rw [Nat.pow_succ] at hpow; omega

/-! ## The gains of the three stages (R128 to R130) -/

/-- A clamp between bounds in order gives a value between them. -/
theorem clampInt_mem {lo hi : Int} (h : lo ≤ hi) (x : Int) : lo ≤ clampInt lo hi x ∧ clampInt lo hi x ≤ hi :=
  ⟨le_max_left .., max_le h (min_le_left ..)⟩

/-- The main target of a PRESENT record is the multiplier of a clamped gain (R129). -/
theorem presentTarget_gain (trim duck : Int) (engaged : Bool) :
    ∃ g : Int, -144 ≤ g ∧ g ≤ 48 ∧ presentTarget trim duck engaged = gainM g := by
  obtain ⟨hlow, hhigh⟩ := clampInt_mem (lo := -144) (hi := 48) (by decide) (trim + if engaged then duck else 0)
  exact ⟨_, hlow, hhigh, rfl⟩

/-- Without a keyed talker in the mask the talk target is 0 (R130). -/
theorem talkTarget_unkeyed {mask : BitVec 4} {level : Int} {talk : Vector TalkEntry 4} (h : anyKeyed mask talk = false) :
    talkTarget mask level talk = 0 := by
  simp [talkTarget, h]

/-- With a keyed talker in the mask the talk target is the multiplier of the talk level (R130). -/
theorem talkTarget_keyed {mask : BitVec 4} {level : Int} {talk : Vector TalkEntry 4} (h : anyKeyed mask talk = true) :
    talkTarget mask level talk = gainM level := by
  simp [talkTarget, h]

/-- Settles O54: the table by its twelve values, the multiplier by its index and exponent, and the stages by their clamps; the talk
level is the one gain that is not clamped where it is used, and the record's invariant keeps it in range. -/
theorem gainMultiplierFollowsTable : Obligations.GainMultiplierFollowsTable := by
  unfold Obligations.GainMultiplierFollowsTable
  refine ⟨rfl, gainTable_rounded, gainM_doubled, gainM_divided, gainM_zero, gainM_least, gainM_greatest,
    fun _ => gainM_range, clampInt_mem (by decide), presentTarget_gain, fun x talk hok => ⟨talkTarget_unkeyed, fun hkeyed => ?_⟩⟩
  obtain ⟨-, -, hlow, hhigh⟩ := hok
  exact ⟨x.level, hlow, hhigh, talkTarget_keyed hkeyed⟩

end Sys2Proof.Machine
end

section
/-! PROOFS. The stage's answers to CLAIM, RELEASE and GAIN by the claimant (R167 to R169), and the two outcomes of a step request
(R159). -/

namespace Sys2Proof.Machine

/-! ## The values of an answer (R168) -/

/-- A number below 256 goes into a verdict as it is. -/
theorem toValue_of_lt {n : Nat} (h : n < 256) : toValue n = ⟨n, h⟩ :=
  Fin.ext (Nat.mod_eq_of_lt h)

@[simp] theorem claimantValue_none : claimantValue none = 255 := rfl

theorem claimantValue_some (e : NodeId) : claimantValue (some e) = ⟨e.val, by omega⟩ :=
  toValue_of_lt (by omega)

/-- The value of a GAIN that is taken is the clamped step (R169). -/
theorem toValue_clampStep (step : Nat) : toValue (clampStep step).val = ⟨min step 60, by omega⟩ :=
  toValue_of_lt (n := min step 60) (by omega)

/-! ## The inputs of this node (R157) -/

theorem Chip.inputOf_existing {c : Chip} {i : InputId} (h : c.existing i) : c.cfg.inputOf i.val = some i := by
  have hcount : i.val < c.cfg.preampCount := h
  simp [Settings.inputOf, hcount]

theorem Chip.inputOf_absent {c : Chip} {i : InputId} (h : c.cfg.preampCount ≤ i.val) : c.cfg.inputOf i.val = none := by
  simp [Settings.inputOf, Nat.not_lt.mpr h]

/-! ## A step request (R159) -/

/-- With an entry to replace, or room for one, the request is admitted: it is queued, its input notes who made it, and the sweep mark
goes. -/
theorem PreampUnit.request_admitted {u : PreampUnit} {i : InputId} (step : Nat) (who : Requester)
    (h : u.queued i = true ∨ u.queue.length < 8) :
    u.request i step who =
      ({ u with
          queue := enqueueRequest { input := i, step := clampStep step, who := who } u.queue
          inputs := upd u.inputs i (fun x => { x with requester := some who, sweep := false }) }, true) := by
  rw [PreampUnit.request, if_pos h]
  rfl

/-- With no entry of its input in a full queue the request is not admitted, and the unit stays. -/
theorem PreampUnit.request_full {u : PreampUnit} {i : InputId} (step : Nat) (who : Requester)
    (hnew : u.queued i = false) (hfull : 8 ≤ u.queue.length) : u.request i step who = (u, false) := by
  rw [PreampUnit.request, if_neg]
  rintro (hqueued | hroom)
  · simp [hnew] at hqueued
  · omega

/-! ## CLAIM (R167) -/

section
variable {c : Chip} {i : InputId} (d : NodeId)

theorem Chip.offerClaim_absent (h : c.cfg.preampCount ≤ i.val) : c.offerClaim d i = (c, .refused .noInput 0) := by
  simp [Chip.offerClaim, Chip.inputOf_absent h]

theorem Chip.offerClaim_unclaimed (hi : c.existing i) (h : c.pre.inputs[i].claimant = none) :
    c.offerClaim d i = ({ c with pre := c.pre.onInput i (fun x => { x with claimant := some d }) },
      .taken (toValue (stepCode c.pre.inputs[i].confirmed))) := by
  simp only [Chip.offerClaim, Chip.inputOf_existing hi, h]

theorem Chip.offerClaim_claimant (hi : c.existing i) (h : c.pre.inputs[i].claimant = some d) :
    c.offerClaim d i = (c, .taken (toValue (stepCode c.pre.inputs[i].confirmed))) := by
  simp only [Chip.offerClaim, Chip.inputOf_existing hi, h, if_pos]

theorem Chip.offerClaim_other {e : NodeId} (hi : c.existing i) (h : c.pre.inputs[i].claimant = some e) (hne : e ≠ d) :
    c.offerClaim d i = (c, .refused .held (toValue e.val)) := by
  simp only [Chip.offerClaim, Chip.inputOf_existing hi, h, if_neg hne]

/-! ## RELEASE (R168) -/

theorem Chip.offerRelease_absent (h : c.cfg.preampCount ≤ i.val) : c.offerRelease d i = (c, .refused .noInput 0) := by
  simp [Chip.offerRelease, Chip.inputOf_absent h]

theorem Chip.offerRelease_claimant (hi : c.existing i) (h : c.pre.inputs[i].claimant = some d) :
    c.offerRelease d i = ({ c with pre := c.pre.onInput i (fun x => { x with claimant := none }) }, .taken 0) := by
  simp only [Chip.offerRelease, Chip.inputOf_existing hi, if_pos h]

theorem Chip.offerRelease_notClaimant (hi : c.existing i) (h : c.pre.inputs[i].claimant ≠ some d) :
    c.offerRelease d i = (c, .refused .notHolder (claimantValue c.pre.inputs[i].claimant)) := by
  simp only [Chip.offerRelease, Chip.inputOf_existing hi, if_neg h]

/-! ## GAIN (R169) -/

variable (step : Nat)

theorem Chip.offerGain_absent (h : c.cfg.preampCount ≤ i.val) : c.offerGain d i step = (c, .refused .noInput 0) := by
  simp [Chip.offerGain, Chip.inputOf_absent h]

theorem Chip.offerGain_notClaimant (hi : c.existing i) (h : c.pre.inputs[i].claimant ≠ some d) :
    c.offerGain d i step = (c, .refused .notHolder (claimantValue c.pre.inputs[i].claimant)) := by
  simp only [Chip.offerGain, Chip.inputOf_existing hi, if_neg h]

/-- The claimant's GAIN whose request is admitted. -/
theorem Chip.offerGain_admitted {u : PreampUnit} (hi : c.existing i) (h : c.pre.inputs[i].claimant = some d)
    (hreq : c.pre.request i step (.node d) = (u, true)) :
    c.offerGain d i step = ({ c with pre := u }, .taken (toValue (clampStep step).val)) := by
  simp only [Chip.offerGain, Chip.inputOf_existing hi, if_pos h, hreq]

/-- The claimant's GAIN whose request is not admitted. -/
theorem Chip.offerGain_busy {u : PreampUnit} (hi : c.existing i) (h : c.pre.inputs[i].claimant = some d)
    (hreq : c.pre.request i step (.node d) = (u, false)) : c.offerGain d i step = (c, .busy) := by
  simp only [Chip.offerGain, Chip.inputOf_existing hi, if_pos h, hreq]

end

/-! ## The three answers -/

/-- Settles O33: one equation per case of the claimant. RELEASE and GAIN from a node that is not the claimant meet one refusal, whose
value is read off the claimant; the claimant's GAIN is decided by what the queue does with its request. -/
theorem stageAnswersClaimReleaseAndGain : Obligations.StageAnswersClaimReleaseAndGain := by
  unfold Obligations.StageAnswersClaimReleaseAndGain
  intro d i step c
  refine ⟨Chip.offerClaim_absent d, Chip.offerClaim_unclaimed d, Chip.offerClaim_claimant d, fun e hi hclaimant hne => ?other,
    fun habsent => ⟨Chip.offerRelease_absent d habsent, Chip.offerGain_absent d step habsent⟩,
    fun hi hnone => ?unclaimed, fun e hi hclaimant hne => ?notHolder,
    fun hi hclaimant => ⟨Chip.offerRelease_claimant d hi hclaimant, fun hroom => ?admitted, fun hnew hfull => ?busy⟩⟩
  case other =>
    rw [Chip.offerClaim_other d hi hclaimant hne, toValue_of_lt]
  case unclaimed =>
    have hnot : c.pre.inputs[i].claimant ≠ some d := hnone.trans_ne (Option.some_ne_none d).symm
    rw [Chip.offerRelease_notClaimant d hi hnot, Chip.offerGain_notClaimant d step hi hnot, hnone, claimantValue_none]
    exact ⟨rfl, rfl⟩
  case notHolder =>
    have hnot : c.pre.inputs[i].claimant ≠ some d := hclaimant.trans_ne (fun heq => hne (Option.some.inj heq))
    rw [Chip.offerRelease_notClaimant d hi hnot, Chip.offerGain_notClaimant d step hi hnot, hclaimant, claimantValue_some]
    exact ⟨rfl, rfl⟩
  case admitted =>
    rw [Chip.offerGain_admitted d step hi hclaimant (PreampUnit.request_admitted step _ hroom), toValue_clampStep]
  case busy =>
    exact Chip.offerGain_busy d step hi hclaimant (PreampUnit.request_full step _ hnew hfull)

end Sys2Proof.Machine
end

section
/-! PROOFS. The ATTN output (R188): the attention set through entry to RUN, and the level at a reset, an event and a head read. -/

namespace Sys2Proof.Machine

/-! ## The level of ATTN (R188) -/

theorem Chip.attn_loading {c : Chip} (h : c.sys.mode = .loading) : c.attn = false := by
  simp only [Chip.attn, h]

theorem Chip.attn_halted {c : Chip} (h : c.sys.mode = .halted) : c.attn = true := by
  simp only [Chip.attn, h]

theorem Chip.attn_run {c : Chip} (h : c.sys.mode = .run) :
    c.attn = true ↔ ∃ e ∈ c.ord.events, c.ord.attention.getLsbD (eventCode e.kind) = true := by
  simp only [Chip.attn, h, List.any_eq_true]

/-! ## Events and the head read (R186, R187) -/

@[simp] theorem OrderUnit.post_attention (o : OrderUnit) (e : Event) : (o.post e).attention = o.attention := by
  by_cases hroom : o.events.length < 32
  · rw [OrderUnit.post_room hroom]
  · rw [OrderUnit.post_full hroom]

@[simp] theorem Chip.post_attention (k : EventKind) (n : Nat) (v : Word) (c : Chip) :
    (c.post k n v).ord.attention = c.ord.attention :=
  OrderUnit.post_attention ..

/-- With room in the queue an event of the posted kind is held. -/
theorem Chip.post_mem_events (k : EventKind) (n : Nat) (v : Word) {c : Chip} (h : c.ord.events.length < 32) :
    ∃ e ∈ (c.post k n v).ord.events, e.kind = k := by
  rw [Chip.post, OrderUnit.post_room h]
  exact ⟨_, List.mem_append_right _ (List.mem_singleton_self _), rfl⟩

/-- An event posted to a full queue leaves nothing but the overflow mark. -/
theorem Chip.post_discarded (k : EventKind) (n : Nat) (v : Word) {c : Chip} (h : 32 ≤ c.ord.events.length) :
    c.post k n v = { c with ord := { c.ord with overflow := true } } := by
  rw [Chip.post, OrderUnit.post_full h.not_gt]

/-- A head read in RUN takes the oldest event, and keeps the mode and the attention set. -/
theorem Chip.eventHeadRead_run {c : Chip} {e : Event} {rest : List Event} (hrun : c.sys.mode = .run)
    (hqueue : c.ord.events = e :: rest) :
    c.eventHeadRead.sys.mode = .run ∧ c.eventHeadRead.ord.events = rest ∧
      c.eventHeadRead.ord.attention = c.ord.attention := by
  simp [Chip.eventHeadRead, OrderUnit.readHead, hrun, hqueue]

/-! ## The claims of an evaluation keep the attention set (R172 to R178)

CLAIM and RELEASE are all that an evaluation enters, for a record or for nobody. -/

@[simp] theorem Chip.offerClaim_ord (d : NodeId) (i : InputId) (c : Chip) : (c.offerClaim d i).1.ord = c.ord := by
  unfold Chip.offerClaim
  repeat' split
  all_goals rfl

@[simp] theorem Chip.offerRelease_ord (d : NodeId) (i : InputId) (c : Chip) : (c.offerRelease d i).1.ord = c.ord := by
  unfold Chip.offerRelease
  repeat' split
  all_goals rfl

/-- Entering a message changes no more of the Order and Report Unit than its handler does. -/
theorem Chip.enter_ord {dest : NodeId} {body : MsgBody} {orig : Originator} {c : Chip}
    (h : (c.offer dest body).1.ord = c.ord) : (c.enter dest body orig).1.ord = c.ord := by
  unfold Chip.enter
  split
  case isTrue =>
    split
    case h_1 htaken => simpa [htaken] using h
    case h_2 hrefused => simpa [hrefused] using h
    case h_3 hbusy => split <;> simpa [hbusy] using h
  case isFalse =>
    repeat' split
    all_goals rfl

@[simp] theorem Chip.postFailed_attention (dest : NodeId) (body : MsgBody) (o : MsgOutcome) (c : Chip) :
    (c.postFailed dest body o).ord.attention = c.ord.attention := by
  unfold Chip.postFailed
  split
  · exact Chip.post_attention ..
  · rfl

/-- A RELEASE that a record's claim leaves behind keeps the attention set, sent or not. -/
@[simp] theorem Chip.sendRelease_attention (owner : NodeId) (i : InputId) (c : Chip) :
    (c.sendRelease owner i).ord.attention = c.ord.attention := by
  have henter : (c.enter owner (.release i) .nobody).1.ord = c.ord := Chip.enter_ord (Chip.offerRelease_ord owner i c)
  unfold Chip.sendRelease Chip.enterQuiet
  split
  case isTrue => rfl
  case isFalse =>
    split
    case h_1 hended => simpa [hended] using congrArg OrderUnit.attention henter
    case h_2 hheld => simpa [hheld] using congrArg OrderUnit.attention henter

@[simp] theorem Chip.claimOutcome_attention (r : RecordId) (dest : NodeId) (i : InputId) (o : MsgOutcome) (c : Chip) :
    (c.claimOutcome r dest i o).ord.attention = c.ord.attention := by
  unfold Chip.claimOutcome
  dsimp only
  repeat' split
  all_goals simp

/-- The CLAIM of a record keeps the attention set, whether the outbox takes it or it ends at once. -/
theorem Chip.sendClaim_attention (owner : NodeId) (i : InputId) (r : RecordId) (c : Chip) :
    (c.send owner (.claim i) (.record r)).1.ord.attention = c.ord.attention := by
  have henter : (c.enter owner (.claim i) (.record r)).1.ord = c.ord := Chip.enter_ord (Chip.offerClaim_ord owner i c)
  unfold Chip.send Chip.deliver
  split
  case h_1 hended => simpa [hended] using congrArg OrderUnit.attention henter
  case h_2 hheld => simpa [hheld] using congrArg OrderUnit.attention henter

@[simp] theorem Chip.tryClaim_attention (r : RecordId) (c : Chip) :
    (c.tryClaim r).1.ord.attention = c.ord.attention := by
  unfold Chip.tryClaim
  dsimp only
  repeat' split
  · simp [Chip.sendClaim_attention]
  all_goals rfl

@[simp] theorem Chip.giveUp_attention (r : RecordId) (c : Chip) : (c.giveUp r).ord.attention = c.ord.attention := by
  unfold Chip.giveUp Chip.postClaimLost
  dsimp only
  split <;> simp

theorem Chip.claimStep_attention (p : Plan) (r : RecordId) (c : Chip) :
    (c.claimStep p r).ord.attention = c.ord.attention := by
  unfold Chip.claimStep
  dsimp only
  repeat' split
  all_goals simp

/-! ## Presentation and entry to RUN keep the attention set (R65, R68, R125, R193) -/

theorem Chip.evaluate_attention (v : Presentation) (c : Chip) : (c.evaluate v).ord.attention = c.ord.attention := by
  rw [Chip.evaluate, Chip.recordStage_ord,
    forEach_fixed 128 _ (fun x : Chip => x.ord.attention) (fun r x => Chip.claimStep_attention v.plan r x), Chip.talkStage_ord]

theorem Chip.presence_attention (v : Presentation) (o : NodeId) (c : Chip) :
    (c.presence v o).ord.attention = c.ord.attention := by
  unfold Chip.presence
  dsimp only
  repeat' split
  all_goals simp

@[simp] theorem Chip.presentTick_attention (c : Chip) : c.presentTick.ord.attention = c.ord.attention := by
  unfold Chip.presentTick
  split
  · rfl
  · rw [Chip.presentPeriod, Chip.evaluate_attention, Chip.onSel_ord, if_neg Bool.false_ne_true]
    exact forEach_fixed 8 _ (fun x : Chip => x.ord.attention) (fun o x => Chip.presence_attention _ o x) c

@[simp] theorem Chip.countTick_ord (span : Nat) (c : Chip) : (c.countTick span).ord = c.ord :=
  Chip.countCadence_ord c

@[simp] theorem Chip.lightAtEntry_attention (p : Port) (c : Chip) :
    (c.lightAtEntry p).ord.attention = c.ord.attention := by
  unfold Chip.lightAtEntry Chip.lightArrival Chip.postPortState
  dsimp only
  repeat' split
  all_goals simp

theorem Chip.firstTick_attention (c : Chip) : c.firstTick.ord.attention = c.ord.attention := by
  simp [Chip.firstTick, Chip.sendSide]

/-- Entry to RUN fills the attention set from the image (R188, R193). -/
theorem Chip.runEntry_attention (m : Image) (c : Chip) : (c.runEntry m).ord.attention = attentionOf m.attention :=
  Chip.firstTick_attention _

/-- Every event kind lies within the kinds that an attention word may name. -/
theorem attentionOf_eventCode (w : Word) (k : EventKind) :
    (attentionOf w).getLsbD (eventCode k) = w.getLsbD (eventCode k) := by
  have hmask : (0x003FFFFE#32).getLsbD (eventCode k) = true := by cases k <;> rfl
  rw [attentionOf, BitVec.getLsbD_and, hmask, Bool.and_true]

/-- A load of a good image enters RUN. -/
theorem Chip.configLoad_good {bytes : List Byte} {m : Image} {c : Chip} (hmode : c.sys.mode = .loading)
    (hload : c.sys.load = .reading) (hgood : loadCheck bytes m c.windowBase = none) :
    c.configLoad bytes m = c.runEntry m := by
  rw [Chip.configLoad, if_pos ⟨hmode, hload⟩, hgood]

/-! ## ATTN (R188) -/

/-- Settles O56: the level by mode, then one fact for each change: a reset is in LOADING with an empty set, entry to RUN keeps the
set that the image places, an event is appended or only marks the overflow, and a head read leaves the rest of the queue. -/
theorem attentionFollowsQueue : Obligations.AttentionFollowsQueue := by
  unfold Obligations.AttentionFollowsQueue
  refine ⟨fun c => ⟨Chip.attn_loading, Chip.attn_halted, Chip.attn_run⟩, fun _ _ _ _ => ⟨rfl, Chip.attn_loading rfl⟩,
    fun bytes m s hmode hload hgood => ?load, fun k n v c hrun hset hroom => ?appended, fun k n v c hfull => ?discarded,
    fun e rest s hrun hqueue => ?headRead⟩
  case load =>
    refine ⟨_, rfl, fun k => ?_⟩
    change (s.chip.configLoad bytes m).ord.attention.getLsbD _ = _
    rw [Chip.configLoad_good hmode hload hgood, Chip.runEntry_attention, attentionOf_eventCode]
  case appended =>
    obtain ⟨e, hmem, hkind⟩ := Chip.post_mem_events k n v hroom
    refine (Chip.attn_run (c := c.post k n v) hrun).mpr ⟨e, hmem, ?_⟩
    rwa [Chip.post_attention, hkind]
  case discarded =>
    rw [Chip.post_discarded k n v hfull]
    rfl
  case headRead =>
    obtain ⟨hmode, hevents, hset⟩ := Chip.eventHeadRead_run hrun hqueue
    refine ⟨_, rfl, ?_⟩
    change s.chip.eventHeadRead.attn = true ↔ _
    rw [Chip.attn_run hmode, hevents, hset]

end Sys2Proof.Machine
end
